-- ==== Sys2Proof/Word.lean ====
section
/-! DEFINITION. Word.lean: the widths of the LCU's data (00_scope.md R5) and the fixed sets of names its
commands use: color registers, channels, format tags. -/

namespace Sys2Proof

/-- One channel of a color: 8 bits (00_scope.md R5; 10_state.md R21). -/
abbrev Byte := BitVec 8

/-- A packed RGB565 or RGB5A3 word: 16 bits (00_scope.md R5). -/
abbrev Half := BitVec 16

/-- A bus register, a command word or a packed RGBA32 word: `XLEN` = 32 bits (00_scope.md R5). -/
abbrev Word := BitVec 32

/-- The offset bits 11..0 the LCU decodes: `OFFW` = 12 (00_scope.md R5; 20_memory.md R40). -/
abbrev Offset := BitVec 12

/-- The names of the `NCR` = 4 color registers, `c0` to `c3` (10_state.md R20). -/
inductive CReg where
  | c0 | c1 | c2 | c3
  deriving DecidableEq, Repr

/-- The channels in the source's order: index 0 is R, 1 is G, 2 is B, 3 is A (00_scope.md R10). -/
inductive Channel where
  | r | g | b | a
  deriving DecidableEq, Repr

/-- The six format tags a color register can hold, in the order of their codes 0 to 5 (10_state.md R27).
Codes 6 and 7 are never stored, so they have no tag here (log entry 10). -/
inductive Format where
  | rgb888 | rgba8888 | rgbf | rgbaf | rgb565 | rgb5a3
  deriving DecidableEq, Repr

end Sys2Proof
end

