-- ==== Sys2Proof/Config.lean ====
section
/-! DEFINITION. Config.lean: the parameters the LCU fixes (00_scope.md R5) and the one it leaves to the platform,
`LCU_BASE`. `BUS_PROTOCOL` is open too; the model works at transaction level (log entry 9). The spec leaves no
result of a command open, so there is no free value. -/

namespace Sys2Proof

/-- `NCR`: how many color registers the LCU has (00_scope.md R5). -/
def Config.ncr : Nat := 4

/-- `ID_VALUE`, the constant content of ID: `L` `C` `U` and revision 1 (10_state.md R33). -/
def Config.idValue : Word := 0x4C435501#32

/-- The size of the register window in bytes (20_memory.md R40). -/
def Config.windowBytes : Nat := 4096

/-- What the platform fixes: `LCU_BASE` is a multiple of 4096, so it is given by its 4 KiB page number
(20_memory.md R40; 93_implementation_defined.md I8). Log entry 7. -/
structure Platform where
  page : Nat
  deriving DecidableEq, Repr

/-- `LCU_BASE`, the bus address of offset 0 (00_scope.md R5). -/
def Platform.base (p : Platform) : Nat := Config.windowBytes * p.page

end Sys2Proof
end

