-- ==== Sys2Proof/Syntax.lean ====
section
/-! DEFINITION. Syntax.lean: the LCU's commands, one constructor for each row of the opcode map
(30_encoding.md R66), with the fields the row uses (R61, R67). -/

namespace Sys2Proof

/-- A command. `cd` is the destination color register, `ca` and `cb` the sources (30_encoding.md R60). -/
inductive Instr where
  /-- `clr cD` (41_color_load.md R110). -/
  | clr (cd : CReg)
  /-- `ld32 cD[, am]` (41_color_load.md R111). -/
  | ld32 (cd : CReg) (am : Bool)
  /-- `ld565 cD` (41_color_load.md R112). -/
  | ld565 (cd : CReg)
  /-- `ld5a3 cD` (41_color_load.md R113). -/
  | ld5a3 (cd : CReg)
  /-- `ldch cD[, am][, hasa]` (41_color_load.md R114). -/
  | ldch (cd : CReg) (am hasa : Bool)
  /-- `setch cD, r|g|b|a` (41_color_load.md R115). -/
  | setch (cd : CReg) (k : Channel)
  /-- `setfmt cD, fmt[, am]` (41_color_load.md R116). -/
  | setfmt (cd : CReg) (fmt : Format) (am : Bool)
  /-- `mov cD, cA` (41_color_load.md R117). -/
  | mov (cd ca : CReg)
  /-- `cvt565to32` (40_codec.md R93). -/
  | cvt565to32
  /-- `cvt565to24` (40_codec.md R94). -/
  | cvt565to24
  /-- `cvt5a3to32` (40_codec.md R95). -/
  | cvt5a3to32
  /-- `cvt5a3to24` (40_codec.md R96). -/
  | cvt5a3to24
  /-- `cvt32to565` (40_codec.md R97). -/
  | cvt32to565
  /-- `cvt32to5a3 [am]` (40_codec.md R98). -/
  | cvt32to5a3 (am : Bool)
  /-- `add cD, cA, cB` (42_blend.md R141). -/
  | add (cd ca cb : CReg)
  /-- `sub cD, cA, cB` (42_blend.md R142). -/
  | sub (cd ca cb : CReg)
  /-- `mul cD, cA, cB` (42_blend.md R143). -/
  | mul (cd ca cb : CReg)
  deriving DecidableEq, Repr

end Sys2Proof
end

