-- ==== Sys2Proof/WellFormed.lean ====
section
/-! DEFINITION. WellFormed.lean: the one condition on a command that its fields' types do not carry
(30_encoding.md R67). A register field below 4, a channel index and a format code 0 to 5 are carried by the types. -/

namespace Sys2Proof

/-- SETFMT's `am` is the caller's flag for RGB5A3 and must be clear for any other code (30_encoding.md R67). -/
def Instr.wellFormed : Instr → Bool
  | .setfmt _ fmt am => !am || decide (fmt = .rgb5a3)
  | .clr _ => true
  | .ld32 _ _ => true
  | .ld565 _ => true
  | .ld5a3 _ => true
  | .ldch _ _ _ => true
  | .setch _ _ => true
  | .mov _ _ => true
  | .cvt565to32 => true
  | .cvt565to24 => true
  | .cvt5a3to32 => true
  | .cvt5a3to24 => true
  | .cvt32to565 => true
  | .cvt32to5a3 _ => true
  | .add _ _ _ => true
  | .sub _ _ _ => true
  | .mul _ _ _ => true

/-- A well-formed command: one that has a legal word. -/
abbrev Instr.WellFormed (i : Instr) : Prop := i.wellFormed = true

end Sys2Proof
end

