-- ==== Sys2Proof/Decode.lean ====
section
/-! DEFINITION. Decode.lean: the command word (30_encoding.md R60): decoding with a named reason for every illegal
word (R61 to R64, R67, R70, R71), the encoder (R60, R66, R72), and the opcode map as the spec prints it (R66). -/

namespace Sys2Proof

/-- Why a word is illegal (30_encoding.md R64). The hardware does not record the reason (60_exceptions.md R160). -/
inductive DecodeError where
  /-- `OP` is in no row of the opcode map. -/
  | unknownOpcode
  /-- A bit of 23..20 or 15..12 is set (30_encoding.md R62). -/
  | reservedBitSet
  /-- A bit of `F`, `CD`, `CA` or `CB` that the command does not use is set (30_encoding.md R61, R62). -/
  | unusedBitSet
  /-- A register field the command uses is 4 or more (30_encoding.md R61). -/
  | noSuchRegister
  /-- SETFMT with format code 6 or 7 (30_encoding.md R67). -/
  | noSuchFormat
  /-- SETFMT with `am` and a code other than 5 (30_encoding.md R67). -/
  | amWithoutRgb5a3
  deriving DecidableEq, Repr

/-! ### Register, channel and format codes -/

/-- The number of a color register in a 4-bit field (30_encoding.md R61). -/
def CReg.code : CReg → BitVec 4
  | .c0 => 0 | .c1 => 1 | .c2 => 2 | .c3 => 3

/-- A register field the command uses: below `NCR` = 4 (30_encoding.md R61). -/
def CReg.ofCode (v : BitVec 4) : Except DecodeError CReg :=
  if v = 0 then .ok .c0
  else if v = 1 then .ok .c1
  else if v = 2 then .ok .c2
  else if v = 3 then .ok .c3
  else .error .noSuchRegister

/-- The channel index (00_scope.md R10). -/
def Channel.code : Channel → BitVec 2
  | .r => 0 | .g => 1 | .b => 2 | .a => 3

/-- The channel with index `v` (00_scope.md R10). -/
def Channel.ofCode (v : BitVec 2) : Channel :=
  if v = 0 then .r else if v = 1 then .g else if v = 2 then .b else .a

/-- The format-tag code (10_state.md R27). -/
def Format.code : Format → BitVec 3
  | .rgb888 => 0 | .rgba8888 => 1 | .rgbf => 2 | .rgbaf => 3 | .rgb565 => 4 | .rgb5a3 => 5

/-- The tag with code `v`; codes 6 and 7 are reserved (10_state.md R27). -/
def Format.ofCode (v : BitVec 3) : Except DecodeError Format :=
  if v = 0 then .ok .rgb888
  else if v = 1 then .ok .rgba8888
  else if v = 2 then .ok .rgbf
  else if v = 3 then .ok .rgbaf
  else if v = 4 then .ok .rgb565
  else if v = 5 then .ok .rgb5a3
  else .error .noSuchFormat

/-! ### The fields of a word -/

/-- `OP`, bits 31..24 (30_encoding.md R60). -/
def fieldOP (w : Word) : BitVec 8 := w.extractLsb' 24 8

/-- The reserved bits 23..20 (30_encoding.md R60). -/
def fieldHighReserved (w : Word) : BitVec 4 := w.extractLsb' 20 4

/-- `F`, bits 19..16 (30_encoding.md R60). -/
def fieldF (w : Word) : BitVec 4 := w.extractLsb' 16 4

/-- The reserved bits 15..12 (30_encoding.md R60). -/
def fieldLowReserved (w : Word) : BitVec 4 := w.extractLsb' 12 4

/-- `CD`, bits 11..8 (30_encoding.md R60). -/
def fieldCD (w : Word) : BitVec 4 := w.extractLsb' 8 4

/-- `CA`, bits 7..4 (30_encoding.md R60). -/
def fieldCA (w : Word) : BitVec 4 := w.extractLsb' 4 4

/-- `CB`, bits 3..0 (30_encoding.md R60). -/
def fieldCB (w : Word) : BitVec 4 := w.extractLsb' 0 4

/-- Bits a command does not use must be 0 (30_encoding.md R61, R62). -/
def unusedZero {n : Nat} (v : BitVec n) : Except DecodeError Unit :=
  if v = 0 then .ok () else .error .unusedBitSet

/-- The command with only a destination register: `F`, `CA` and `CB` unused. -/
def decodeDest (w : Word) (mk : CReg → Instr) : Except DecodeError Instr := do
  unusedZero (fieldF w)
  unusedZero (fieldCA w)
  unusedZero (fieldCB w)
  return mk (← CReg.ofCode (fieldCD w))

/-- The command with no register field at all: `CD`, `CA` and `CB` unused. -/
def decodeNoRegs (w : Word) (i : Instr) : Except DecodeError Instr := do
  unusedZero (fieldCD w)
  unusedZero (fieldCA w)
  unusedZero (fieldCB w)
  return i

/-- The blender's command: three registers, `F` unused (42_blend.md R141 to R143). -/
def decodeBlend (w : Word) (mk : CReg → CReg → CReg → Instr) : Except DecodeError Instr := do
  unusedZero (fieldF w)
  return mk (← CReg.ofCode (fieldCD w)) (← CReg.ofCode (fieldCA w)) (← CReg.ofCode (fieldCB w))

/-- LD32: `F[0]` = `am`, `F[3:1]` unused (30_encoding.md R67). -/
def decodeLd32 (w : Word) : Except DecodeError Instr := do
  unusedZero ((fieldF w).extractLsb' 1 3)
  unusedZero (fieldCA w)
  unusedZero (fieldCB w)
  return .ld32 (← CReg.ofCode (fieldCD w)) ((fieldF w).getLsbD 0)

/-- LDCH: `F[0]` = `am`, `F[1]` = `hasa`, `F[3:2]` unused (30_encoding.md R67). -/
def decodeLdch (w : Word) : Except DecodeError Instr := do
  unusedZero ((fieldF w).extractLsb' 2 2)
  unusedZero (fieldCA w)
  unusedZero (fieldCB w)
  return .ldch (← CReg.ofCode (fieldCD w)) ((fieldF w).getLsbD 0) ((fieldF w).getLsbD 1)

/-- SETCH: `F[1:0]` = channel index, `F[3:2]` unused (30_encoding.md R67). -/
def decodeSetch (w : Word) : Except DecodeError Instr := do
  unusedZero ((fieldF w).extractLsb' 2 2)
  unusedZero (fieldCA w)
  unusedZero (fieldCB w)
  return .setch (← CReg.ofCode (fieldCD w)) (Channel.ofCode ((fieldF w).extractLsb' 0 2))

/-- SETFMT: `F[2:0]` = format code, `F[3]` = `am`, which only RGB5A3 may set (30_encoding.md R67). -/
def decodeSetfmt (w : Word) : Except DecodeError Instr := do
  unusedZero (fieldCA w)
  unusedZero (fieldCB w)
  let cd ← CReg.ofCode (fieldCD w)
  let fmt ← Format.ofCode ((fieldF w).extractLsb' 0 3)
  let am := (fieldF w).getLsbD 3
  if am = true ∧ fmt ≠ .rgb5a3 then .error .amWithoutRgb5a3 else .ok (.setfmt cd fmt am)

/-- MOV: `CD` and `CA`; `F` and `CB` unused (30_encoding.md R66). -/
def decodeMov (w : Word) : Except DecodeError Instr := do
  unusedZero (fieldF w)
  unusedZero (fieldCB w)
  return .mov (← CReg.ofCode (fieldCD w)) (← CReg.ofCode (fieldCA w))

/-- A conversion without modifier: the whole word below `OP` is 0 (40_codec.md R93 to R97). -/
def decodeCvt (w : Word) (i : Instr) : Except DecodeError Instr := do
  unusedZero (fieldF w)
  decodeNoRegs w i

/-- CVT32TO5A3: `F[0]` = `am`, `F[3:1]` unused (30_encoding.md R67). -/
def decodeCvt32to5a3 (w : Word) : Except DecodeError Instr := do
  unusedZero ((fieldF w).extractLsb' 1 3)
  decodeNoRegs w (.cvt32to5a3 ((fieldF w).getLsbD 0))

/-- The opcode map (30_encoding.md R66), for a word whose reserved bits are 0. -/
def decodeOpcode (w : Word) : Except DecodeError Instr :=
  match (fieldOP w).toNat with
  | 0x10 => decodeDest w .clr
  | 0x11 => decodeLd32 w
  | 0x12 => decodeDest w .ld565
  | 0x13 => decodeDest w .ld5a3
  | 0x14 => decodeLdch w
  | 0x15 => decodeSetch w
  | 0x16 => decodeSetfmt w
  | 0x17 => decodeMov w
  | 0x20 => decodeCvt w .cvt565to32
  | 0x21 => decodeCvt w .cvt565to24
  | 0x22 => decodeCvt w .cvt5a3to32
  | 0x23 => decodeCvt w .cvt5a3to24
  | 0x24 => decodeCvt w .cvt32to565
  | 0x25 => decodeCvt32to5a3 w
  | 0x30 => decodeBlend w .add
  | 0x31 => decodeBlend w .sub
  | 0x32 => decodeBlend w .mul
  | _ => .error .unknownOpcode

/-- The command a word names, or why it is illegal (30_encoding.md R63, R64). -/
def decode (w : Word) : Except DecodeError Instr :=
  if fieldHighReserved w = 0 ∧ fieldLowReserved w = 0 then decodeOpcode w else .error .reservedBitSet

/-! ### The encoder -/

/-- A word from its fields, `{OP, 0b0000, F, 0b0000, CD, CA, CB}` (30_encoding.md R60). -/
def wordOf (op : BitVec 8) (f cd ca cb : BitVec 4) : Word :=
  op ++ 0#4 ++ f ++ 0#4 ++ cd ++ ca ++ cb

/-- A flag as one bit. -/
def flagBit (b : Bool) : BitVec 1 := BitVec.ofBool b

/-- The word of a command (30_encoding.md R66, R67, R72). -/
def encode : Instr → Word
  | .clr cd => wordOf 0x10 0 cd.code 0 0
  | .ld32 cd am => wordOf 0x11 (0#3 ++ flagBit am) cd.code 0 0
  | .ld565 cd => wordOf 0x12 0 cd.code 0 0
  | .ld5a3 cd => wordOf 0x13 0 cd.code 0 0
  | .ldch cd am hasa => wordOf 0x14 (0#2 ++ flagBit hasa ++ flagBit am) cd.code 0 0
  | .setch cd k => wordOf 0x15 (0#2 ++ k.code) cd.code 0 0
  | .setfmt cd fmt am => wordOf 0x16 (flagBit am ++ fmt.code) cd.code 0 0
  | .mov cd ca => wordOf 0x17 0 cd.code ca.code 0
  | .cvt565to32 => wordOf 0x20 0 0 0 0
  | .cvt565to24 => wordOf 0x21 0 0 0 0
  | .cvt5a3to32 => wordOf 0x22 0 0 0 0
  | .cvt5a3to24 => wordOf 0x23 0 0 0 0
  | .cvt32to565 => wordOf 0x24 0 0 0 0
  | .cvt32to5a3 am => wordOf 0x25 (0#3 ++ flagBit am) 0 0 0
  | .add cd ca cb => wordOf 0x30 0 cd.code ca.code cb.code
  | .sub cd ca cb => wordOf 0x31 0 cd.code ca.code cb.code
  | .mul cd ca cb => wordOf 0x32 0 cd.code ca.code cb.code

/-! ### The opcode map as the spec prints it -/

/-- The `match` and `mask` of one row of the opcode map (30_encoding.md R66). -/
structure OpcodeRow where
  pattern : Word
  mask : Word
  deriving DecidableEq, Repr

/-- A word fits a row when `(w & mask) = match` (30_encoding.md R63). -/
def OpcodeRow.fits (row : OpcodeRow) (w : Word) : Bool := decide (w &&& row.mask = row.pattern)

/-- The rows of family 1, the color-register codec (30_encoding.md R66). -/
def loadRows : List OpcodeRow :=
  [⟨0x10000000, 0xFFFFFCFF⟩, ⟨0x11000000, 0xFFFEFCFF⟩, ⟨0x12000000, 0xFFFFFCFF⟩, ⟨0x13000000, 0xFFFFFCFF⟩,
   ⟨0x14000000, 0xFFFCFCFF⟩, ⟨0x15000000, 0xFFFCFCFF⟩, ⟨0x16000000, 0xFFF0FCFF⟩, ⟨0x17000000, 0xFFFFFCCF⟩]

/-- The rows of family 2, the stateless conversions (30_encoding.md R66). -/
def convertRows : List OpcodeRow :=
  [⟨0x20000000, 0xFFFFFFFF⟩, ⟨0x21000000, 0xFFFFFFFF⟩, ⟨0x22000000, 0xFFFFFFFF⟩, ⟨0x23000000, 0xFFFFFFFF⟩,
   ⟨0x24000000, 0xFFFFFFFF⟩, ⟨0x25000000, 0xFFFEFFFF⟩]

/-- The rows of family 3, the blender (30_encoding.md R66). -/
def blendRows : List OpcodeRow :=
  [⟨0x30000000, 0xFFFFFCCC⟩, ⟨0x31000000, 0xFFFFFCCC⟩, ⟨0x32000000, 0xFFFFFCCC⟩]

/-- The opcode map (30_encoding.md R66). -/
def opcodeMap : List OpcodeRow := loadRows ++ convertRows ++ blendRows

/-- SETFMT's extra condition: `F` is one of `0x0` to `0x5` and `0xD` (30_encoding.md R67). -/
def setfmtFlagsLegal (w : Word) : Bool :=
  decide ((fieldF w).toNat ≤ 5) || decide (fieldF w = 0xD)

/-- The spec's own definition of a legal command word (30_encoding.md R63): some row fits, and for SETFMT the extra
condition of R67 holds. -/
def legalWord (w : Word) : Bool :=
  opcodeMap.any (fun row => row.fits w) && (decide (fieldOP w ≠ 0x16) || setfmtFlagsLegal w)

/-! ### The host's view of the decoder -/

/-- The command read from a table word of `nbits` bits, bit 0 least significant; every command is one 32-bit word
(30_encoding.md R71), so a wider word is none. Log entry 13. -/
def decodeTableWord (nbits w : Nat) : Option Instr :=
  if nbits ≤ 32 ∧ w < 2 ^ nbits then (decode (BitVec.ofNat 32 w)).toOption else none

end Sys2Proof
end

