-- ==== Sys2Proof/Machine/State.lean ====
section
/-! DEFINITION. Machine/State.lean: everything the spec gives the LCU (10_state.md R20 to R39), as plain data, and what
waits at and comes back from its one bus port (20_memory.md R51); the state after reset (10_state.md R39). -/

namespace Sys2Proof.Machine

/-- A 4-channel tuple `(R, G, B, A)` (00_scope.md R10). -/
structure Channels where
  r : Byte
  g : Byte
  b : Byte
  a : Byte
  deriving DecidableEq, Repr

/-- One color register: exactly the stored fields of 10_state.md R20. P32 and P565 are views of `ch` (R22, R23) and
are not stored; P5A3 is stored (R24). -/
structure ColorReg where
  ch : Channels
  p5a3 : Half
  am : Bool
  fmt : Format
  valid : Bool
  deriving DecidableEq, Repr

/-- The color registers CR0 to CR3; none is hardwired and none aliases another (10_state.md R20). -/
structure ColorRegs where
  c0 : ColorReg
  c1 : ColorReg
  c2 : ColorReg
  c3 : ColorReg
  deriving DecidableEq, Repr

/-- What an access does: a read, or a write of 32-bit data (20_memory.md R42). -/
inductive AccessKind where
  | read
  | write (data : Word)
  deriving DecidableEq, Repr

/-- One host transaction as the port sees it: the offset bits 11..0 it decodes (20_memory.md R40), the width in bytes,
and what it does. Widths other than 4 and misaligned offsets can be written down, and are refused (20_memory.md R43). -/
structure Access where
  offset : Offset
  bytes : Nat
  kind : AccessKind
  deriving DecidableEq, Repr

/-- What arrives from outside: an access, an access that overlaps the reset input (70_reset_and_hazards.md R181), or
the reset input between accesses (70_reset_and_hazards.md R180). -/
inductive PortEvent where
  | access (a : Access)
  | accessDuringReset (a : Access)
  | reset
  deriving DecidableEq, Repr

/-- The state of the machine. The spec's own state is `cr` to `ram`; `port` and `replies` are the model's. -/
structure State where
  /-- CR0 to CR3 (10_state.md R20). -/
  cr : ColorRegs
  /-- Operand A (10_state.md R30). -/
  opa : Word
  /-- Operand B (10_state.md R30). -/
  opb : Word
  /-- Operand C (10_state.md R30). -/
  opc : Word
  /-- Operand D (10_state.md R30). -/
  opd : Word
  /-- The last stateless conversion (10_state.md R31). -/
  result : Word
  /-- STATUS bit 0, the sticky error bit (10_state.md R32). -/
  ill : Bool
  /-- STATUS bit 1, the alpha-meaningful output of the last stateless conversion (10_state.md R32). -/
  ram : Bool
  /-- DESIGN CHOICE (log entry 1): what the port has still to take, in the order it takes it (20_memory.md R51). -/
  port : List PortEvent
  /-- DESIGN CHOICE (log entry 2): the data returned to read transactions, oldest first (20_memory.md R47). -/
  replies : List Word
  deriving DecidableEq, Repr

/-- No event stops the LCU with a fault: its one error sets STATUS.ILL and it goes on (60_exceptions.md R160 to R162).
So there is no fault reason, and no step answers a fault (log entry 12). -/
inductive Fault where
  deriving DecidableEq, Repr

/-- Why the model gives no meaning to a step. -/
inductive Refusal where
  /-- Raised only by an arm of `exec` whose instruction has no meaning yet; none is left. Safe: the machine stops. -/
  | notModelled (mnemonic : String)
  /-- Raised by the port for an access that is not a 32-bit access at a multiple of 4 (20_memory.md R43;
  60_exceptions.md R164). Safe: the spec orders the refusal (log entry 5). -/
  | accessOutsideContract
  /-- Raised by the port for an access that overlaps reset (70_reset_and_hazards.md R181). Safe: the spec orders the
  refusal (log entry 6). -/
  | accessOverlapsReset
  deriving DecidableEq, Repr

/-- A color register after reset: the default value of CLR (10_state.md R39; 41_color_load.md R110). -/
def ColorReg.reset : ColorReg :=
  { ch := ⟨0, 0, 0, 0⟩, p5a3 := 0x8000, am := false, fmt := .rgb888, valid := true }

/-- The machine right after reset (10_state.md R39; 70_reset_and_hazards.md R180), with nothing waiting at the port. -/
def State.reset : State :=
  { cr := ⟨.reset, .reset, .reset, .reset⟩
    opa := 0, opb := 0, opc := 0, opd := 0
    result := 0
    ill := false, ram := false
    port := [], replies := [] }

end Sys2Proof.Machine
end

