-- ==== Sys2Proof/Machine/Codec.lean ====
section
/-! DEFINITION. Machine/Codec.lean: the bitfield codec, pure functions between the channels and the packed words
(40_codec.md R80 to R91), with the spec's own shifts and masks. -/

namespace Sys2Proof.Machine

/-! ### Expansion (40_codec.md section 1) -/

/-- `(v<<5) | ((v&6)<<2) | v` (40_codec.md R80; 90_conflicts.md C1). -/
def expand3 (v : BitVec 3) : Byte :=
  let x : Byte := v.setWidth 8
  (x <<< 5) ||| ((x &&& 6) <<< 2) ||| x

/-- `(v<<4) | v` (40_codec.md R81). -/
def expand4 (v : BitVec 4) : Byte :=
  let x : Byte := v.setWidth 8
  (x <<< 4) ||| x

/-- `(v<<3) | (v>>2)` (40_codec.md R82). -/
def expand5 (v : BitVec 5) : Byte :=
  let x : Byte := v.setWidth 8
  (x <<< 3) ||| (x >>> 2)

/-- `(v<<2) | (v>>4)` (40_codec.md R83). -/
def expand6 (v : BitVec 6) : Byte :=
  let x : Byte := v.setWidth 8
  (x <<< 2) ||| (x >>> 4)

/-! ### Packing and unpacking (40_codec.md section 2) -/

/-- RGBA32: red in 31..24, green in 23..16, blue in 15..8, alpha in 7..0 (40_codec.md R84). -/
def rgba32 (ch : Channels) : Word :=
  (ch.r.setWidth 32 <<< 24) ||| (ch.g.setWidth 32 <<< 16) ||| (ch.b.setWidth 32 <<< 8) ||| ch.a.setWidth 32

/-- The channels of an RGBA32 word (40_codec.md R84). -/
def unpack32 (w : Word) : Channels :=
  ⟨w.extractLsb' 24 8, w.extractLsb' 16 8, w.extractLsb' 8 8, w.extractLsb' 0 8⟩

/-- The "888" word `0x00RRGGBB`: alpha dropped (40_codec.md R94, R96). -/
def rgb24 (ch : Channels) : Word :=
  (ch.r.setWidth 32 <<< 16) ||| (ch.g.setWidth 32 <<< 8) ||| ch.b.setWidth 32

/-- `((r>>3)<<11) | ((g>>2)<<5) | (b>>3)` (40_codec.md R85). -/
def pack565 (r g b : Byte) : Half :=
  ((r.setWidth 16 >>> 3) <<< 11) ||| ((g.setWidth 16 >>> 2) <<< 5) ||| (b.setWidth 16 >>> 3)

/-- The opaque alpha, `0xFF` (40_codec.md R86, R88; 41_color_load.md R114). -/
def opaqueAlpha : Byte := 0xFF

/-- The channels of an RGB565 word; alpha is opaque (40_codec.md R86). -/
def decode565 (w : Half) : Channels :=
  ⟨expand5 (w.extractLsb' 11 5), expand6 (w.extractLsb' 5 6), expand5 (w.extractLsb' 0 5), opaqueAlpha⟩

/-- RGB5A3: alpha-bearing with bit 15 clear, or no-alpha with bit 15 set (40_codec.md R87; 90_conflicts.md C2). -/
def pack5A3 (ch : Channels) (am : Bool) : Half :=
  if am then
    ((ch.a.setWidth 16 >>> 5) <<< 12) ||| ((ch.r.setWidth 16 >>> 4) <<< 8) |||
      ((ch.g.setWidth 16 >>> 4) <<< 4) ||| (ch.b.setWidth 16 >>> 4)
  else
    0x8000#16 ||| ((ch.r.setWidth 16 >>> 3) <<< 10) ||| ((ch.g.setWidth 16 >>> 3) <<< 5) ||| (ch.b.setWidth 16 >>> 3)

/-- The channels of an RGB5A3 word and whether alpha is meaningful, `NOT w[15]` (40_codec.md R88). -/
def decode5A3 (w : Half) : Channels × Bool :=
  if w.getLsbD 15 then
    (⟨expand5 (w.extractLsb' 10 5), expand5 (w.extractLsb' 5 5), expand5 (w.extractLsb' 0 5), opaqueAlpha⟩, false)
  else
    (⟨expand4 (w.extractLsb' 8 4), expand4 (w.extractLsb' 4 4), expand4 (w.extractLsb' 0 4),
      expand3 (w.extractLsb' 12 3)⟩, true)

/-! ### Clamping (40_codec.md section 3) -/

/-- `min(255, max(0, x))`, before narrowing (40_codec.md R91). -/
def clampInt (x : Int) : Int := min 255 (max 0 x)

/-- The clamped value as a channel (40_codec.md R91; 10_state.md R21). -/
def clamp8 (x : Int) : Byte := BitVec.ofInt 8 (clampInt x)

/-- `0 <= x <= 255` (40_codec.md R91). -/
def inrange8 (x : Int) : Bool := decide (0 ≤ x) && decide (x ≤ 255)

end Sys2Proof.Machine
end

