-- ==== Sys2Proof/Machine/Ops.lean ====
section
/-! DEFINITION. Machine/Ops.lean: the named operations on the state that the commands and the port share: a color
register's read and write, Resync (40_codec.md R92), the operand registers, RESULT and RAM, the one error
(60_exceptions.md R161) and the reset event (70_reset_and_hazards.md R180). -/

namespace Sys2Proof.Machine

/-! ### Channels -/

/-- `ch[k]` (00_scope.md R10). -/
def Channels.get (ch : Channels) : Channel → Byte
  | .r => ch.r | .g => ch.g | .b => ch.b | .a => ch.a

/-- `ch` with `ch[k] <- v` (00_scope.md R10). -/
def Channels.set (ch : Channels) (k : Channel) (v : Byte) : Channels :=
  match k with
  | .r => { ch with r := v }
  | .g => { ch with g := v }
  | .b => { ch with b := v }
  | .a => { ch with a := v }

/-! ### The color register file -/

/-- `CR[i]` (10_state.md R20). -/
def ColorRegs.get (f : ColorRegs) : CReg → ColorReg
  | .c0 => f.c0 | .c1 => f.c1 | .c2 => f.c2 | .c3 => f.c3

/-- `CR[i] <- c`; no register is hardwired (10_state.md R20). -/
def ColorRegs.set (f : ColorRegs) (i : CReg) (c : ColorReg) : ColorRegs :=
  match i with
  | .c0 => { f with c0 := c }
  | .c1 => { f with c1 := c }
  | .c2 => { f with c2 := c }
  | .c3 => { f with c3 := c }

/-- `CR[i]` of a state. -/
def State.getCr (s : State) (i : CReg) : ColorReg := s.cr.get i

/-- A state with `CR[i] <- c`. -/
def State.setCr (s : State) (i : CReg) (c : ColorReg) : State := { s with cr := s.cr.set i c }

/-- `Resync(i, ch, am)`: channels, AM and the regenerated P5A3; neither FMT nor VALID (40_codec.md R92). -/
def State.resync (s : State) (i : CReg) (ch : Channels) (am : Bool) : State :=
  s.setCr i { s.getCr i with ch := ch, am := am, p5a3 := pack5A3 ch am }

/-- `CR[i].FMT <- t` (10_state.md R27). -/
def State.setFmt (s : State) (i : CReg) (t : Format) : State := s.setCr i { s.getCr i with fmt := t }

/-- `CR[i].AM <- am`, without a resync (41_color_load.md R116). -/
def State.setAm (s : State) (i : CReg) (am : Bool) : State := s.setCr i { s.getCr i with am := am }

/-- `CR[i].VALID <- ok` (10_state.md R26). -/
def State.setValid (s : State) (i : CReg) (ok : Bool) : State := s.setCr i { s.getCr i with valid := ok }

/-- A whole-value assignment: Resync, then FMT and VALID (41_color_load.md R110 to R114, R117; 42_blend.md R140). -/
def State.assign (s : State) (i : CReg) (ch : Channels) (am : Bool) (t : Format) (ok : Bool) : State :=
  ((s.resync i ch am).setFmt i t).setValid i ok

/-! ### RESULT and STATUS -/

/-- What a stateless conversion writes: RESULT and STATUS.RAM (40_codec.md R93 to R98). -/
def State.convertTo (s : State) (w : Word) (am : Bool) : State := { s with result := w, ram := am }

/-- `raise IllegalCommand(w)`: STATUS.ILL is set and nothing else changes (60_exceptions.md R161). The LCU has no trap:
no state is saved, nothing is redirected (R167), and there is no return (R168). -/
def State.raiseIllegal (s : State) : State := { s with ill := true }

/-- The host's recovery, a STATUS write: bit 0 set clears ILL, every other bit is ignored (10_state.md R32;
20_memory.md R45; 60_exceptions.md R168). -/
def State.writeStatus (s : State) (d : Word) : State := { s with ill := s.ill && !d.getLsbD 0 }

/-- The reset input between two accesses: every piece of the LCU's state takes its reset value
(70_reset_and_hazards.md R180). What is outside the LCU, the transactions still to come and the data already
returned, is kept (log entry 14). -/
def State.assertReset (s : State) : State := { State.reset with port := s.port, replies := s.replies }

/-- The data of a read transaction, returned to the host. -/
def State.reply (s : State) (v : Word) : State := { s with replies := s.replies ++ [v] }

end Sys2Proof.Machine
end

