-- ==== Sys2Proof/Machine/Operands.lean ====
section
/-! DEFINITION. Machine/Operands.lean: how a command reads the operand registers (30_encoding.md R68). There is no
immediate and no addressing mode; color-register operands are read by `State.getCr` (R69). -/

namespace Sys2Proof.Machine

/-- OPA as an unsigned RGBA32 word (30_encoding.md R68). -/
def State.opaRgba32 (s : State) : Word := s.opa

/-- `OPA[15:0]`; `OPA[31:16]` is ignored (30_encoding.md R68). -/
def State.opaHalf (s : State) : Half := s.opa.extractLsb' 0 16

/-- `sext_32`: a 32-bit pattern as a two's-complement integer (00_scope.md R8). -/
def sext32 (w : Word) : Int := w.toInt

/-- SETCH's operand: OPA as a signed integer (30_encoding.md R68). -/
def State.opaChannel (s : State) : Int := sext32 s.opa

/-- Four channel values before any clamping. -/
structure RawChannels where
  r : Int
  g : Int
  b : Int
  a : Int
  deriving DecidableEq, Repr

/-- LDCH's operands: OPA, OPB, OPC, and OPD when `hasa` is set, else the opaque 255, which is in range
(30_encoding.md R68; 41_color_load.md R114). -/
def State.rawOperands (s : State) (hasa : Bool) : RawChannels :=
  ⟨sext32 s.opa, sext32 s.opb, sext32 s.opc, if hasa then sext32 s.opd else 255⟩

/-- Every channel clamped (40_codec.md R91). -/
def RawChannels.clamp (x : RawChannels) : Channels := ⟨clamp8 x.r, clamp8 x.g, clamp8 x.b, clamp8 x.a⟩

end Sys2Proof.Machine
end

