-- ==== Sys2Proof/Machine/Flags.lean ====
section
/-! DEFINITION. Machine/Flags.lean: how the commands compute AM, FMT and VALID (10_state.md R25 to R27). -/

namespace Sys2Proof.Machine

/-- VALID of a load or a blend: every value was in range before clamping (10_state.md R26; 41_color_load.md R114;
42_blend.md R140). -/
def RawChannels.inRange (x : RawChannels) : Bool :=
  inrange8 x.r && inrange8 x.g && inrange8 x.b && inrange8 x.a

/-- FMT of LD32 and LDCH: RGBA8888 when `am` is set, else RGB888 (41_color_load.md R111, R114). -/
def fmtOfAm (am : Bool) : Format := if am then .rgba8888 else .rgb888

/-- AM written by SETFMT: the table of 41_color_load.md R116. -/
def amOfFmt (fmt : Format) (am : Bool) : Bool :=
  match fmt with
  | .rgb888 => false
  | .rgba8888 => true
  | .rgbf => false
  | .rgbaf => true
  | .rgb565 => false
  | .rgb5a3 => am

end Sys2Proof.Machine
end

