-- ==== Sys2Proof/Machine/Blend.lean ====
section
/-! DEFINITION. Machine/Blend.lean: family 3, the saturating channel blender (42_blend.md R140 to R144). -/

namespace Sys2Proof.Machine

/-- The exact integer results of the four lanes, alpha included; no lane reads another (42_blend.md R140). -/
def blendLanes (op : Int → Int → Int) (x y : Channels) : RawChannels :=
  ⟨op x.r.toNat y.r.toNat, op x.g.toNat y.g.toNat, op x.b.toNat y.b.toNat, op x.a.toNat y.a.toNat⟩

/-- The common lane structure of ADD, SUB and MUL: every source is read first, the results are clamped, AM and FMT come
from `CA`, VALID says that no lane saturated (42_blend.md R140; 20_memory.md R50). -/
def State.blend (s : State) (op : Int → Int → Int) (cd ca cb : CReg) : State :=
  let raw := blendLanes op (s.getCr ca).ch (s.getCr cb).ch
  s.assign cd raw.clamp (s.getCr ca).am (s.getCr ca).fmt raw.inRange

/-- ADD (42_blend.md R141). -/
def execAdd (cd ca cb : CReg) (s : State) : Host.Outcome State Fault Refusal :=
  .next (s.blend (fun x y => x + y) cd ca cb)

/-- SUB, `CA` minus `CB` (42_blend.md R142). -/
def execSub (cd ca cb : CReg) (s : State) : Host.Outcome State Fault Refusal :=
  .next (s.blend (fun x y => x - y) cd ca cb)

/-- MUL, not normalised (42_blend.md R143). -/
def execMul (cd ca cb : CReg) (s : State) : Host.Outcome State Fault Refusal :=
  .next (s.blend (fun x y => x * y) cd ca cb)

end Sys2Proof.Machine
end

