-- ==== Sys2Proof/Machine/ColorLoad.lean ====
section
/-! DEFINITION. Machine/ColorLoad.lean: family 1, color-register construction and accessors (41_color_load.md R110 to
R117). Every command here writes only `CR[CD]`. -/

namespace Sys2Proof.Machine

/-- CLR, the default value (41_color_load.md R110). -/
def execClr (cd : CReg) (s : State) : Host.Outcome State Fault Refusal :=
  .next (s.assign cd ⟨0, 0, 0, 0⟩ false .rgb888 true)

/-- LD32, the packed-32 constructor (41_color_load.md R111). -/
def execLd32 (cd : CReg) (am : Bool) (s : State) : Host.Outcome State Fault Refusal :=
  .next (s.assign cd (unpack32 s.opaRgba32) am (fmtOfAm am) true)

/-- LD565, the 16-bit constructor with the RGB565 selector (41_color_load.md R112). -/
def execLd565 (cd : CReg) (s : State) : Host.Outcome State Fault Refusal :=
  .next (s.assign cd (decode565 s.opaHalf) false .rgb565 true)

/-- LD5A3, the 16-bit constructor with the RGB5A3 selector (41_color_load.md R113). -/
def execLd5a3 (cd : CReg) (s : State) : Host.Outcome State Fault Refusal :=
  .next (s.assign cd (decode5A3 s.opaHalf).1 (decode5A3 s.opaHalf).2 .rgb5a3 true)

/-- LDCH, the integer-channel constructor (41_color_load.md R114). -/
def execLdch (cd : CReg) (am hasa : Bool) (s : State) : Host.Outcome State Fault Refusal :=
  .next (s.assign cd (s.rawOperands hasa).clamp am (fmtOfAm am) (s.rawOperands hasa).inRange)

/-- SETCH, the single-channel setter: resync with the current AM, FMT kept (41_color_load.md R115). -/
def execSetch (cd : CReg) (k : Channel) (s : State) : Host.Outcome State Fault Refusal :=
  .next ((s.resync cd ((s.getCr cd).ch.set k (clamp8 s.opaChannel)) (s.getCr cd).am).setValid cd
    (inrange8 s.opaChannel))

/-- SETFMT, the format-tag writer: no resync (41_color_load.md R116; 90_conflicts.md C4). -/
def execSetfmt (cd : CReg) (fmt : Format) (am : Bool) (s : State) : Host.Outcome State Fault Refusal :=
  .next ((s.setFmt cd fmt).setAm cd (amOfFmt fmt am))

/-- MOV, copy and whole-value assignment: P5A3 is regenerated, not copied (41_color_load.md R117; 90_conflicts.md C3). -/
def execMov (cd ca : CReg) (s : State) : Host.Outcome State Fault Refusal :=
  let src := s.getCr ca
  .next (s.assign cd src.ch src.am src.fmt src.valid)

end Sys2Proof.Machine
end

