-- ==== Sys2Proof/Machine/Convert.lean ====
section
/-! DEFINITION. Machine/Convert.lean: family 2, the stateless conversions (40_codec.md R93 to R98). Every command here
reads OPA and writes RESULT and STATUS.RAM only. -/

namespace Sys2Proof.Machine

/-- CVT565TO32 (40_codec.md R93). -/
def execCvt565to32 (s : State) : Host.Outcome State Fault Refusal :=
  .next (s.convertTo (rgba32 (decode565 s.opaHalf)) false)

/-- CVT565TO24 (40_codec.md R94). -/
def execCvt565to24 (s : State) : Host.Outcome State Fault Refusal :=
  .next (s.convertTo (rgb24 (decode565 s.opaHalf)) false)

/-- CVT5A3TO32 (40_codec.md R95). -/
def execCvt5a3to32 (s : State) : Host.Outcome State Fault Refusal :=
  .next (s.convertTo (rgba32 (decode5A3 s.opaHalf).1) (decode5A3 s.opaHalf).2)

/-- CVT5A3TO24: the decoded alpha is dropped, RAM still reports the mode (40_codec.md R96). -/
def execCvt5a3to24 (s : State) : Host.Outcome State Fault Refusal :=
  .next (s.convertTo (rgb24 (decode5A3 s.opaHalf).1) (decode5A3 s.opaHalf).2)

/-- CVT32TO565 (40_codec.md R97). -/
def execCvt32to565 (s : State) : Host.Outcome State Fault Refusal :=
  let c := unpack32 s.opaRgba32
  .next (s.convertTo ((pack565 c.r c.g c.b).setWidth 32) false)

/-- CVT32TO5A3 (40_codec.md R98). -/
def execCvt32to5a3 (am : Bool) (s : State) : Host.Outcome State Fault Refusal :=
  .next (s.convertTo ((pack5A3 (unpack32 s.opaRgba32) am).setWidth 32) am)

end Sys2Proof.Machine
end

