-- ==== Sys2Proof/Machine/Dispatch.lean ====
section
/-! DEFINITION. Machine/Dispatch.lean: one arm per command, each one call of its meaning (30_encoding.md R65, R66). -/

namespace Sys2Proof.Machine

def exec (i : Instr) (s : State) : Host.Outcome State Fault Refusal :=
  match i with
  | .clr cd => Sys2Proof.Machine.execClr cd s
  | .ld32 cd am => Sys2Proof.Machine.execLd32 cd am s
  | .ld565 cd => Sys2Proof.Machine.execLd565 cd s
  | .ld5a3 cd => Sys2Proof.Machine.execLd5a3 cd s
  | .ldch cd am hasa => Sys2Proof.Machine.execLdch cd am hasa s
  | .setch cd k => Sys2Proof.Machine.execSetch cd k s
  | .setfmt cd fmt am => Sys2Proof.Machine.execSetfmt cd fmt am s
  | .mov cd ca => Sys2Proof.Machine.execMov cd ca s
  | .cvt565to32 => Sys2Proof.Machine.execCvt565to32 s
  | .cvt565to24 => Sys2Proof.Machine.execCvt565to24 s
  | .cvt5a3to32 => Sys2Proof.Machine.execCvt5a3to32 s
  | .cvt5a3to24 => Sys2Proof.Machine.execCvt5a3to24 s
  | .cvt32to565 => Sys2Proof.Machine.execCvt32to565 s
  | .cvt32to5a3 am => Sys2Proof.Machine.execCvt32to5a3 am s
  | .add cd ca cb => Sys2Proof.Machine.execAdd cd ca cb s
  | .sub cd ca cb => Sys2Proof.Machine.execSub cd ca cb s
  | .mul cd ca cb => Sys2Proof.Machine.execMul cd ca cb s

end Sys2Proof.Machine
end

