-- ==== Sys2Proof/Machine/Window.lean ====
section
/-! DEFINITION. Machine/Window.lean: the register window: its map (20_memory.md R41), which accesses it accepts (R42,
R43), and what a read returns (R44, R45, R47). -/

namespace Sys2Proof.Machine

/-- The registers of the window by name (20_memory.md R41; 30_encoding.md R73). -/
inductive RegName where
  | cmd | opa | opb | opc | opd | result | status | id | cfg
  | crP32 (n : CReg) | crP565 (n : CReg) | crP5a3 (n : CReg) | crMeta (n : CReg)
  deriving DecidableEq, Repr

/-- The offset of `CRn.P32`, `0x100 + 0x10·n` (20_memory.md R41). -/
def crBase (n : CReg) : Offset := 0x100 + (n.code.setWidth 12 <<< 4)

/-- `offset(REG)` (20_memory.md R41; 30_encoding.md R73). -/
def RegName.offset : RegName → Offset
  | .cmd => 0x000
  | .opa => 0x004
  | .opb => 0x008
  | .opc => 0x00C
  | .opd => 0x010
  | .result => 0x014
  | .status => 0x018
  | .id => 0x01C
  | .cfg => 0x020
  | .crP32 n => crBase n
  | .crP565 n => crBase n + 0x4
  | .crP5a3 n => crBase n + 0x8
  | .crMeta n => crBase n + 0xC

/-- Which color register's window an offset in `0x100` to `0x13F` lies in: bits 5..4 (20_memory.md R41). -/
def windowCr (off : Offset) : CReg :=
  match (off.extractLsb' 4 2).toNat with
  | 0 => .c0
  | 1 => .c1
  | 2 => .c2
  | _ => .c3

/-- The register at an offset in `0x100` to `0x13F` (20_memory.md R41). -/
def crRegAt (off : Offset) : Option RegName :=
  match (off.extractLsb' 0 4).toNat with
  | 0x0 => some (.crP32 (windowCr off))
  | 0x4 => some (.crP565 (windowCr off))
  | 0x8 => some (.crP5a3 (windowCr off))
  | 0xC => some (.crMeta (windowCr off))
  | _ => none

/-- The register at an offset; `none` where the offset is unmapped (20_memory.md R41, R44). -/
def regAt (off : Offset) : Option RegName :=
  if off.extractLsb' 6 6 = 4 then crRegAt off
  else match off.toNat with
    | 0x000 => some .cmd
    | 0x004 => some .opa
    | 0x008 => some .opb
    | 0x00C => some .opc
    | 0x010 => some .opd
    | 0x014 => some .result
    | 0x018 => some .status
    | 0x01C => some .id
    | 0x020 => some .cfg
    | _ => none

/-- An access inside the interface contract: 32 bits wide at a multiple of 4 (20_memory.md R42, R43). -/
def Access.inContract (a : Access) : Bool := decide (a.bytes = 4) && decide (a.offset.toNat % 4 = 0)

/-- STATUS: bit 0 ILL, bit 1 RAM, bits 31..2 read 0 (10_state.md R32). -/
def State.statusWord (s : State) : Word := 0#30 ++ BitVec.ofBool s.ram ++ BitVec.ofBool s.ill

/-- CFG: bits 3..0 hold `NCR`, the others read 0 (10_state.md R34). -/
def cfgValue : Word := BitVec.ofNat 32 Config.ncr

/-- META: bit 0 AM, bit 1 VALID, bits 6..4 FMT, the others 0 (20_memory.md R41). -/
def ColorReg.metaWord (c : ColorReg) : Word :=
  0#25 ++ c.fmt.code ++ 0#2 ++ BitVec.ofBool c.valid ++ BitVec.ofBool c.am

/-- The P32 view of the channels (10_state.md R22). -/
def ColorReg.p32 (c : ColorReg) : Word := rgba32 c.ch

/-- The P565 view of the channels (10_state.md R23). -/
def ColorReg.p565 (c : ColorReg) : Half := pack565 c.ch.r c.ch.g c.ch.b

/-- What a read of a register returns (20_memory.md R41); a read of CMD returns 0 (10_state.md R35). -/
def State.readReg (s : State) : RegName → Word
  | .cmd => 0
  | .opa => s.opa
  | .opb => s.opb
  | .opc => s.opc
  | .opd => s.opd
  | .result => s.result
  | .status => s.statusWord
  | .id => Config.idValue
  | .cfg => cfgValue
  | .crP32 n => (s.getCr n).p32
  | .crP565 n => (s.getCr n).p565.setWidth 32
  | .crP5a3 n => (s.getCr n).p5a3.setWidth 32
  | .crMeta n => (s.getCr n).metaWord

/-- What an aligned 32-bit read of an offset returns; an unmapped offset reads 0 (20_memory.md R41, R44). -/
def State.readWindow (s : State) (off : Offset) : Word :=
  match regAt off with
  | some r => s.readReg r
  | none => 0

end Sys2Proof.Machine
end

