-- ==== Sys2Proof/Machine/Port.lean ====
section
/-! DEFINITION. Machine/Port.lean: what the one bus port does with what it takes: a command (30_encoding.md R65; 60_exceptions.md
R161), a register write (20_memory.md R45, R47), a read, and the reset input (70_reset_and_hazards.md R180, R181). -/

namespace Sys2Proof.Machine

/-- A write of `w` to CMD: a legal word's command runs, an illegal word sets ILL (30_encoding.md R64, R65;
60_exceptions.md R161). -/
def State.runCommand (s : State) (w : Word) : Host.Outcome State Fault Refusal :=
  match decode w with
  | .ok i => exec i s
  | .error _ => .next s.raiseIllegal

/-- A write of `d` to a register (20_memory.md R47); a write to a read-only register is ignored (20_memory.md R45). -/
def State.writeReg (s : State) (r : RegName) (d : Word) : Host.Outcome State Fault Refusal :=
  match r with
  | .cmd => s.runCommand d
  | .opa => .next { s with opa := d }
  | .opb => .next { s with opb := d }
  | .opc => .next { s with opc := d }
  | .opd => .next { s with opd := d }
  | .status => .next (s.writeStatus d)
  | .result => .next s
  | .id => .next s
  | .cfg => .next s
  | .crP32 _ => .next s
  | .crP565 _ => .next s
  | .crP5a3 _ => .next s
  | .crMeta _ => .next s

/-- An aligned 32-bit write to an offset; an unmapped offset ignores it (20_memory.md R44). -/
def State.writeWindow (s : State) (off : Offset) (d : Word) : Host.Outcome State Fault Refusal :=
  match regAt off with
  | some r => s.writeReg r d
  | none => .next s

/-- One access, whole and atomic (20_memory.md R48, R49); one outside the contract is refused (20_memory.md R43). -/
def State.access (s : State) (a : Access) : Host.Outcome State Fault Refusal :=
  if a.inContract then
    match a.kind with
    | .read => .next (s.reply (s.readWindow a.offset))
    | .write d => s.writeWindow a.offset d
  else .refused .accessOutsideContract

/-- What the port does with one event. -/
def State.serve (s : State) (e : PortEvent) : Host.Outcome State Fault Refusal :=
  match e with
  | .access a => s.access a
  | .accessDuringReset _ => .refused .accessOverlapsReset
  | .reset => .next s.assertReset

/-- The port takes the next event, if one waits, and completes it before the next (20_memory.md R51;
70_reset_and_hazards.md R186). With nothing waiting the LCU keeps its state (60_exceptions.md R174; log entry 4). -/
def State.portStep (s : State) : Host.Outcome State Fault Refusal :=
  match s.port with
  | [] => .next s
  | e :: rest => State.serve { s with port := rest } e

/-- The 32-bit read of an offset. -/
def readAt (off : Offset) : PortEvent := .access ⟨off, 4, .read⟩

/-- The 32-bit write of `d` to an offset. -/
def writeAt (off : Offset) (d : Word) : PortEvent := .access ⟨off, 4, .write d⟩

/-- The write of a word to CMD (10_state.md R35). -/
def commandWrite (w : Word) : PortEvent := writeAt RegName.cmd.offset w

/-- The word a table entry of `nbits` bits denotes, the bits above them 0. -/
def tableWord (nbits w : Nat) : Word := BitVec.ofNat 32 (w % 2 ^ nbits)

end Sys2Proof.Machine
end

