-- ==== Sys2Proof/Machine/Step.lean ====
section
/-! DEFINITION. Machine/Step.lean: one step of the machine, and how a command is put where the next step takes it. -/

namespace Sys2Proof.Machine

/-- One step: the port takes and completes one event (20_memory.md R51). -/
def step (s : State) : Host.Outcome State Fault Refusal := s.portStep

/-- `s` with the write of that word to CMD as the next event the port takes, so that the next step decodes and runs
exactly it: the LCU fetches nothing, a command is the data of one CMD write (20_memory.md R54). Log entry 3. -/
def State.withFetchWord (s : State) (nbits w : Nat) : State :=
  { s with port := commandWrite (tableWord nbits w) :: s.port }

end Sys2Proof.Machine
end

