-- ==== Sys2Proof/Laws/Decode.lean ====
section
/-! SUPPORT. Laws/Decode.lean: the fields of a word built from its fields, and the codes read back. -/

namespace Sys2Proof

@[simp] theorem CReg.ofCode_code (c : CReg) : CReg.ofCode c.code = .ok c := by cases c <;> rfl
@[simp] theorem Channel.ofCode_code (k : Channel) : Channel.ofCode k.code = k := by cases k <;> rfl
@[simp] theorem Format.ofCode_code (t : Format) : Format.ofCode t.code = .ok t := by cases t <;> rfl

theorem CReg.code_of_ofCode {v : BitVec 4} {c : CReg} (h : CReg.ofCode v = .ok c) : c.code = v := by
  unfold CReg.ofCode at h
  repeat' split at h
  all_goals first | (cases h; simp_all [CReg.code]) | cases h

theorem Format.code_of_ofCode {v : BitVec 3} {t : Format} (h : Format.ofCode v = .ok t) : t.code = v := by
  unfold Format.ofCode at h
  repeat' split at h
  all_goals first | (cases h; simp_all [Format.code]) | cases h

theorem Channel.code_ofCode : ∀ v : BitVec 2, (Channel.ofCode v).code = v := by decide

variable (op : BitVec 8) (f cd ca cb : BitVec 4)

/-- Where each bit of a word comes from (30_encoding.md R60). -/
theorem wordOf_bit (j : Nat) : (wordOf op f cd ca cb).getLsbD j =
    if j < 4 then cb.getLsbD j else if j < 8 then ca.getLsbD (j - 4) else if j < 12 then cd.getLsbD (j - 8)
    else if j < 16 then false else if j < 20 then f.getLsbD (j - 16) else if j < 24 then false
    else op.getLsbD (j - 24) := by
  show BitVec.getLsbD (w := 8 + 4 + 4 + 4 + 4 + 4 + 4) (op ++ 0#4 ++ f ++ 0#4 ++ cd ++ ca ++ cb) j = _
  simp only [BitVec.getLsbD_append, BitVec.getLsbD_zero]
  split_ifs <;> first | rfl | omega

@[simp] theorem fieldOP_wordOf : fieldOP (wordOf op f cd ca cb) = op := by
  refine BitVec.eq_of_getLsbD_eq fun i hi => ?_
  simp only [fieldOP, BitVec.getLsbD_extractLsb', wordOf_bit]
  interval_cases i <;> simp

@[simp] theorem fieldF_wordOf : fieldF (wordOf op f cd ca cb) = f := by
  refine BitVec.eq_of_getLsbD_eq fun i hi => ?_
  simp only [fieldF, BitVec.getLsbD_extractLsb', wordOf_bit]
  interval_cases i <;> simp

@[simp] theorem fieldCD_wordOf : fieldCD (wordOf op f cd ca cb) = cd := by
  refine BitVec.eq_of_getLsbD_eq fun i hi => ?_
  simp only [fieldCD, BitVec.getLsbD_extractLsb', wordOf_bit]
  interval_cases i <;> simp

@[simp] theorem fieldCA_wordOf : fieldCA (wordOf op f cd ca cb) = ca := by
  refine BitVec.eq_of_getLsbD_eq fun i hi => ?_
  simp only [fieldCA, BitVec.getLsbD_extractLsb', wordOf_bit]
  interval_cases i <;> simp

@[simp] theorem fieldCB_wordOf : fieldCB (wordOf op f cd ca cb) = cb := by
  refine BitVec.eq_of_getLsbD_eq fun i hi => ?_
  simp only [fieldCB, BitVec.getLsbD_extractLsb', wordOf_bit]
  interval_cases i <;> simp

@[simp] theorem fieldHighReserved_wordOf : fieldHighReserved (wordOf op f cd ca cb) = 0 := by
  refine BitVec.eq_of_getLsbD_eq fun i hi => ?_
  simp only [fieldHighReserved, BitVec.getLsbD_extractLsb', wordOf_bit]
  interval_cases i <;> simp

@[simp] theorem fieldLowReserved_wordOf : fieldLowReserved (wordOf op f cd ca cb) = 0 := by
  refine BitVec.eq_of_getLsbD_eq fun i hi => ?_
  simp only [fieldLowReserved, BitVec.getLsbD_extractLsb', wordOf_bit]
  interval_cases i <;> simp

/-- A word whose reserved bits are 0 is built from its fields (30_encoding.md R60). -/
theorem wordOf_fields {w : Word} (hr : fieldHighReserved w = 0) (lr : fieldLowReserved w = 0) :
    wordOf (fieldOP w) (fieldF w) (fieldCD w) (fieldCA w) (fieldCB w) = w := by
  refine BitVec.eq_of_getLsbD_eq fun j hj => ?_
  have h1 : ∀ k < 4, w.getLsbD (20 + k) = false := fun k hk => by
    have := congrArg (fun v => v.getLsbD k) hr
    simpa [fieldHighReserved, hk] using this
  have h2 : ∀ k < 4, w.getLsbD (12 + k) = false := fun k hk => by
    have := congrArg (fun v => v.getLsbD k) lr
    simpa [fieldLowReserved, hk] using this
  rw [wordOf_bit]
  simp only [fieldOP, fieldF, fieldCD, fieldCA, fieldCB, BitVec.getLsbD_extractLsb']
  split_ifs with a b c d e f
  · simp [a]
  · simp [show j - 4 < 4 by omega, show 4 + (j - 4) = j by omega]
  · simp [show j - 8 < 4 by omega, show 8 + (j - 8) = j by omega]
  · have := h2 (j - 12) (by omega); rw [show 12 + (j - 12) = j by omega] at this; exact this.symm
  · simp [show j - 16 < 4 by omega, show 16 + (j - 16) = j by omega]
  · have := h1 (j - 20) (by omega); rw [show 20 + (j - 20) = j by omega] at this; exact this.symm
  · simp [show j - 24 < 8 by omega, show 24 + (j - 24) = j by omega]

end Sys2Proof
end

