-- ==== Sys2Proof/Laws/PerInstr.lean ====
section
/-! SUPPORT. Laws/PerInstr.lean: for each command, the word it is encoded as fits a row of the opcode map and, for
SETFMT, R67's extra condition (30_encoding.md R63, R66, R67). -/

namespace Sys2Proof.Laws.EncodesLegal

/-- The word of a well-formed command is legal by the spec's own table (30_encoding.md R63). -/
def Statement (i : Instr) : Prop := i.WellFormed → legalWord (encode i) = true

theorem clr (cd : CReg) : Statement (.clr cd) := by intro _; cases cd <;> decide
theorem ld32 (cd : CReg) (am : Bool) : Statement (.ld32 cd am) := by intro _; cases cd <;> cases am <;> decide
theorem ld565 (cd : CReg) : Statement (.ld565 cd) := by intro _; cases cd <;> decide
theorem ld5a3 (cd : CReg) : Statement (.ld5a3 cd) := by intro _; cases cd <;> decide
theorem ldch (cd : CReg) (am hasa : Bool) : Statement (.ldch cd am hasa) := by
  intro _; cases cd <;> cases am <;> cases hasa <;> decide
theorem setch (cd : CReg) (k : Channel) : Statement (.setch cd k) := by intro _; cases cd <;> cases k <;> decide
theorem setfmt (cd : CReg) (fmt : Format) (am : Bool) : Statement (.setfmt cd fmt am) := by
  intro h; revert h; cases cd <;> cases fmt <;> cases am <;> decide
theorem mov (cd ca : CReg) : Statement (.mov cd ca) := by intro _; cases cd <;> cases ca <;> decide
theorem cvt565to32 : Statement .cvt565to32 := by intro _; decide
theorem cvt565to24 : Statement .cvt565to24 := by intro _; decide
theorem cvt5a3to32 : Statement .cvt5a3to32 := by intro _; decide
theorem cvt5a3to24 : Statement .cvt5a3to24 := by intro _; decide
theorem cvt32to565 : Statement .cvt32to565 := by intro _; decide
theorem cvt32to5a3 (am : Bool) : Statement (.cvt32to5a3 am) := by intro _; cases am <;> decide
theorem add (cd ca cb : CReg) : Statement (.add cd ca cb) := by
  intro _; cases cd <;> cases ca <;> cases cb <;> decide
theorem sub (cd ca cb : CReg) : Statement (.sub cd ca cb) := by
  intro _; cases cd <;> cases ca <;> cases cb <;> decide
theorem mul (cd ca cb : CReg) : Statement (.mul cd ca cb) := by
  intro _; cases cd <;> cases ca <;> cases cb <;> decide

end Sys2Proof.Laws.EncodesLegal
end

