-- ==== Sys2Proof/Machine/Bus.lean ====
section
/-! DEFINITION. Machine/Bus.lean: the bus outside the LCU as far as the spec gives it: which transactions reach the window
at `LCU_BASE` (20_memory.md R40, R57; 00_scope.md R9). -/

namespace Sys2Proof.Machine

/-- A host transaction at a bus address (00_scope.md R9). -/
structure BusTransaction where
  addr : Nat
  bytes : Nat
  kind : AccessKind
  deriving DecidableEq, Repr

/-- `MemRead(addr, 4)` (00_scope.md R9). -/
def memRead (addr : Nat) : BusTransaction := ⟨addr, 4, .read⟩

/-- `MemWrite(addr, 4, v)` (00_scope.md R9). -/
def memWrite (addr : Nat) (v : Word) : BusTransaction := ⟨addr, 4, .write v⟩

/-- The access a transaction becomes at the port: its address lies in `LCU_BASE` to `LCU_BASE + 0xFFF`, and the LCU
decodes offset bits 11..0 (20_memory.md R40). A transaction elsewhere is not the LCU's (R57; log entry 7).

DESIGN CHOICE (log entry 7): the start address alone selects. The spec gives no routing for a transaction that starts
below `LCU_BASE` and whose bytes run into the window (4 bytes at `LCU_BASE - 2`; 20_memory.md R43, 60_exceptions.md
R164): here it does not reach the LCU, so it has no effect and is not refused. Unsafe. One that starts in the window
and runs past its end reaches the port, which refuses it as misaligned or not 4 bytes wide. -/
def selectAccess (p : Platform) (t : BusTransaction) : Option Access :=
  if p.base ≤ t.addr ∧ t.addr < p.base + Config.windowBytes then
    some ⟨BitVec.ofNat 12 t.addr, t.bytes, t.kind⟩
  else none

/-- A transaction issued on the bus joins the end of what the port has still to take (20_memory.md R51). -/
def State.issue (s : State) (p : Platform) (t : BusTransaction) : State :=
  match selectAccess p t with
  | some a => { s with port := s.port ++ [.access a] }
  | none => s

end Sys2Proof.Machine
end

