-- ==== Sys2Proof/Machine/Asm.lean ====
section
/-! DEFINITION. Machine/Asm.lean: the written forms of the spec: commands as tokens (30_encoding.md R72), host
transactions `rd` and `wr` (R73), pseudo-instructions and their expansions (R74). Notation only (log entry 16). -/

namespace Sys2Proof.Machine

/-! ### Commands (30_encoding.md R72) -/

/-- `cN`. -/
def CReg.token : CReg → String
  | .c0 => "c0" | .c1 => "c1" | .c2 => "c2" | .c3 => "c3"

/-- `r`, `g`, `b`, `a`. -/
def Channel.token : Channel → String
  | .r => "r" | .g => "g" | .b => "b" | .a => "a"

/-- The written name of a format tag. -/
def Format.token : Format → String
  | .rgb888 => "rgb888" | .rgba8888 => "rgba8888" | .rgbf => "rgbf" | .rgbaf => "rgbaf"
  | .rgb565 => "rgb565" | .rgb5a3 => "rgb5a3"

/-- An optional word of a command. -/
def optToken (b : Bool) (t : String) : List String := if b then [t] else []

/-- A command as its lower-case mnemonic followed by its operands (30_encoding.md R72). -/
def asmTokens : Instr → List String
  | .clr cd => ["clr", CReg.token cd]
  | .ld32 cd am => ["ld32", CReg.token cd] ++ optToken am "am"
  | .ld565 cd => ["ld565", CReg.token cd]
  | .ld5a3 cd => ["ld5a3", CReg.token cd]
  | .ldch cd am hasa => ["ldch", CReg.token cd] ++ optToken am "am" ++ optToken hasa "hasa"
  | .setch cd k => ["setch", CReg.token cd, Channel.token k]
  | .setfmt cd fmt am => ["setfmt", CReg.token cd, Format.token fmt] ++ optToken am "am"
  | .mov cd ca => ["mov", CReg.token cd, CReg.token ca]
  | .cvt565to32 => ["cvt565to32"]
  | .cvt565to24 => ["cvt565to24"]
  | .cvt5a3to32 => ["cvt5a3to32"]
  | .cvt5a3to24 => ["cvt5a3to24"]
  | .cvt32to565 => ["cvt32to565"]
  | .cvt32to5a3 am => ["cvt32to5a3"] ++ optToken am "am"
  | .add cd ca cb => ["add", CReg.token cd, CReg.token ca, CReg.token cb]
  | .sub cd ca cb => ["sub", CReg.token cd, CReg.token ca, CReg.token cb]
  | .mul cd ca cb => ["mul", CReg.token cd, CReg.token ca, CReg.token cb]

/-! ### Host transactions (30_encoding.md R73) -/

/-- One line of a host program. -/
inductive HostOp where
  /-- `rd REG`. -/
  | rd (r : RegName)
  /-- `wr REG, value`. -/
  | wr (r : RegName) (v : Word)
  deriving DecidableEq, Repr

/-- The transaction a line stands for on a platform (30_encoding.md R73). -/
def HostOp.transaction (p : Platform) : HostOp → BusTransaction
  | .rd r => memRead (p.base + r.offset.toNat)
  | .wr r v => memWrite (p.base + r.offset.toNat) v

/-- The event a line is at the port. -/
def HostOp.event : HostOp → PortEvent
  | .rd r => readAt r.offset
  | .wr r v => writeAt r.offset v

/-- A bare command line stands for `wr cmd, <its word>` (30_encoding.md R73). -/
def command (i : Instr) : HostOp := .wr .cmd (encode i)

/-! ### Pseudo-instructions (30_encoding.md R74) -/

/-- The six conversions of `cvt<x>i`. -/
inductive Conversion where
  | c565to32 | c565to24 | c5a3to32 | c5a3to24 | c32to565 | c32to5a3
  deriving DecidableEq, Repr

/-- The conversion's command. -/
def Conversion.instr : Conversion → Instr
  | .c565to32 => .cvt565to32
  | .c565to24 => .cvt565to24
  | .c5a3to32 => .cvt5a3to32
  | .c5a3to24 => .cvt5a3to24
  | .c32to565 => .cvt32to565
  | .c32to5a3 => .cvt32to5a3 false

/-- The pseudo-instructions (30_encoding.md R74). -/
inductive Pseudo where
  | ld32i (cd : CReg) (imm : Word) (am : Bool)
  | ld565i (cd : CReg) (imm : Half)
  | ld5a3i (cd : CReg) (imm : Half)
  | ldchi (cd : CReg) (r g b : Word) (a : Option Word) (am : Bool)
  | setchi (cd : CReg) (k : Channel) (imm : Word)
  | cvti (c : Conversion) (imm : Word)
  | resync (cd : CReg)
  | clrerr
  deriving DecidableEq, Repr

/-- The expansion of a pseudo-instruction (30_encoding.md R74). -/
def Pseudo.expand : Pseudo → List HostOp
  | .ld32i cd imm am => [.wr .opa imm, command (.ld32 cd am)]
  | .ld565i cd imm => [.wr .opa (imm.setWidth 32), command (.ld565 cd)]
  | .ld5a3i cd imm => [.wr .opa (imm.setWidth 32), command (.ld5a3 cd)]
  | .ldchi cd r g b none am => [.wr .opa r, .wr .opb g, .wr .opc b, command (.ldch cd am false)]
  | .ldchi cd r g b (some a) am =>
    [.wr .opa r, .wr .opb g, .wr .opc b, .wr .opd a, command (.ldch cd am true)]
  | .setchi cd k imm => [.wr .opa imm, command (.setch cd k)]
  | .cvti c imm => [.wr .opa imm, command c.instr, .rd .result]
  | .resync cd => [command (.mov cd cd)]
  | .clrerr => [.wr .status 0x00000001]

end Sys2Proof.Machine
end

