-- ==== Sys2Proof/Safety.lean ====
section
/-! DEFINITION. Safety.lean: the terms claims are stated in: runs of the port, events the interface contract admits,
interleavings of masters, what a command writes, and the standing facts about P5A3 (10_state.md R29). -/

namespace Sys2Proof.Machine

/-- `n` steps, stopping at the first refusal. -/
def runSteps : Nat → State → Host.Outcome State Fault Refusal
  | 0, s => .next s
  | n + 1, s =>
    match step s with
    | .next t => runSteps n t
    | .fault r => .fault r
    | .refused r => .refused r

/-- `s` with exactly `es` waiting at the port. -/
def State.withPort (s : State) (es : List PortEvent) : State := { s with port := es }

/-- An event the spec gives a meaning: a 32-bit access at a multiple of 4, not overlapping reset, or the reset input
(20_memory.md R42, R43; 70_reset_and_hazards.md R180, R181). -/
def PortEvent.admitted : PortEvent → Bool
  | .access a => a.inContract
  | .accessDuringReset _ => false
  | .reset => true

/-- A 32-bit read at a multiple of 4. -/
def PortEvent.isRead : PortEvent → Bool
  | .access a => decide (a.kind = .read)
  | .accessDuringReset _ => false
  | .reset => false

/-- The word an event writes to CMD, if it does (10_state.md R35). -/
def PortEvent.commandWord : PortEvent → Option Word
  | .access ⟨off, bytes, .write w⟩ => if off = 0x000 ∧ bytes = 4 then some w else none
  | .access ⟨_, _, .read⟩ => none
  | .accessDuringReset _ => none
  | .reset => none

/-- The command an event runs: the one its CMD word names, if the word is legal (30_encoding.md R65). -/
def PortEvent.command (e : PortEvent) : Option Instr :=
  match e.commandWord with
  | some w => (decode w).toOption
  | none => none

/-- `c` is an interleaving of two masters' sequences `a` and `b`: one total order that respects each master's order of
issue (20_memory.md R51, R53). -/
inductive Interleaving : List PortEvent → List PortEvent → List PortEvent → Prop where
  | done : Interleaving [] [] []
  | first {a b c : List PortEvent} (e : PortEvent) : Interleaving a b c → Interleaving (e :: a) b (e :: c)
  | second {a b c : List PortEvent} (e : PortEvent) : Interleaving a b c → Interleaving a (e :: b) (e :: c)

/-- The color register a command writes (41_color_load.md; 42_blend.md R140); a conversion writes none
(40_codec.md section 4). -/
def destOf : Instr → Option CReg
  | .clr cd => some cd
  | .ld32 cd _ => some cd
  | .ld565 cd => some cd
  | .ld5a3 cd => some cd
  | .ldch cd _ _ => some cd
  | .setch cd _ => some cd
  | .setfmt cd _ _ => some cd
  | .mov cd _ => some cd
  | .cvt565to32 => none
  | .cvt565to24 => none
  | .cvt5a3to32 => none
  | .cvt5a3to24 => none
  | .cvt32to565 => none
  | .cvt32to5a3 _ => none
  | .add cd _ _ => some cd
  | .sub cd _ _ => some cd
  | .mul cd _ _ => some cd

/-- SETFMT, the one command that writes a color register without a resync (10_state.md R29). -/
def isSetfmt : Instr → Bool
  | .clr _ => false
  | .ld32 _ _ => false
  | .ld565 _ => false
  | .ld5a3 _ => false
  | .ldch _ _ _ => false
  | .setch _ _ => false
  | .setfmt _ _ _ => true
  | .mov _ _ => false
  | .cvt565to32 => false
  | .cvt565to24 => false
  | .cvt5a3to32 => false
  | .cvt5a3to24 => false
  | .cvt32to565 => false
  | .cvt32to5a3 _ => false
  | .add _ _ _ => false
  | .sub _ _ _ => false
  | .mul _ _ _ => false

/-- One of the six stateless conversions (40_codec.md R93 to R98). -/
def isConversion : Instr → Bool
  | .clr _ => false
  | .ld32 _ _ => false
  | .ld565 _ => false
  | .ld5a3 _ => false
  | .ldch _ _ _ => false
  | .setch _ _ => false
  | .setfmt _ _ _ => false
  | .mov _ _ => false
  | .cvt565to32 => true
  | .cvt565to24 => true
  | .cvt5a3to32 => true
  | .cvt5a3to24 => true
  | .cvt32to565 => true
  | .cvt32to5a3 _ => true
  | .add _ _ _ => false
  | .sub _ _ _ => false
  | .mul _ _ _ => false

/-- An event that resyncs `CR[i]`: reset, or a command other than SETFMT that writes it (10_state.md R29). -/
def PortEvent.resyncs (e : PortEvent) (i : CReg) : Bool :=
  match e with
  | .reset => true
  | e =>
    match e.command with
    | some c => decide (destOf c = some i) && !isSetfmt c
    | none => false

/-- The event of the next step, if one waits. -/
def State.nextEvent (s : State) : Option PortEvent := s.port.head?

/-- `P5A3` of every register is the word of its channels in the mode `m` gives (10_state.md R29). -/
def PackedInMode (m : CReg → Bool) (s : State) : Prop :=
  ∀ i, (s.getCr i).p5a3 = pack5A3 (s.getCr i).ch (m i)

/-- The modes after a step: AM at every register the step's event resyncs, else as before (10_state.md R29). -/
def modeAfter (s t : State) (m : CReg → Bool) (i : CReg) : Bool :=
  match s.nextEvent with
  | some e => if e.resyncs i then (t.getCr i).am else m i
  | none => m i

/-- `P5A3` of `CR[i]` is current: it agrees with its channels and its AM (10_state.md R29). -/
def P5A3Current (s : State) (i : CReg) : Prop :=
  (s.getCr i).p5a3 = pack5A3 (s.getCr i).ch (s.getCr i).am

/-- `t` and `s` agree on everything but the color registers. -/
def SameButColors (s t : State) : Prop :=
  t.opa = s.opa ∧ t.opb = s.opb ∧ t.opc = s.opc ∧ t.opd = s.opd ∧ t.result = s.result ∧
    t.ill = s.ill ∧ t.ram = s.ram ∧ t.port = s.port ∧ t.replies = s.replies

/-- The offsets of the window of `CR[n]`, 16 bytes from `0x100 + 0x10·n` (20_memory.md R41). -/
def inCrWindow (n : CReg) (off : Offset) : Prop :=
  0x100 + 0x10 * n.code.toNat ≤ off.toNat ∧ off.toNat < 0x110 + 0x10 * n.code.toNat

/-! ### The codec's fields and words as plain numbers

Claims say what a field or a word is with these, by division and remainder, not with the shifts and masks the meanings
use. -/

/-- `len` bits of `n` from bit `lo`, as a number (00_scope.md R6). -/
def bitsOf (n lo len : Nat) : Nat := n / 2 ^ lo % 2 ^ len

/-- A 3-bit field on 8 bits (40_codec.md R80). -/
def wide3 (v : Nat) : Nat := 32 * v + 8 * (v / 2) + v

/-- A 4-bit field on 8 bits (40_codec.md R81). -/
def wide4 (v : Nat) : Nat := 17 * v

/-- A 5-bit field on 8 bits (40_codec.md R82). -/
def wide5 (v : Nat) : Nat := 8 * v + v / 4

/-- A 6-bit field on 8 bits (40_codec.md R83). -/
def wide6 (v : Nat) : Nat := 4 * v + v / 16

/-- The RGBA32 word of four channel values (40_codec.md R84). -/
def word8888 (r g b a : Nat) : Nat := 2 ^ 24 * r + 2 ^ 16 * g + 2 ^ 8 * b + a

/-- The `0x00RRGGBB` word of three channel values (40_codec.md R94). -/
def word888 (r g b : Nat) : Nat := 2 ^ 16 * r + 2 ^ 8 * g + b

/-- The RGB565 word of three channel values (40_codec.md R85). -/
def word565 (r g b : Nat) : Nat := 2 ^ 11 * (r / 8) + 2 ^ 5 * (g / 4) + b / 8

/-- The RGB5A3 word of four channel values in the mode `am` gives (40_codec.md R87). -/
def word5A3 (r g b a : Nat) (am : Bool) : Nat :=
  if am then 2 ^ 12 * (a / 32) + 2 ^ 8 * (r / 16) + 2 ^ 4 * (g / 16) + b / 16
  else 2 ^ 15 + 2 ^ 10 * (r / 8) + 2 ^ 5 * (g / 8) + b / 8

/-- The RGBA32 word of a color register's channels (10_state.md R22). -/
def Channels.n8888 (ch : Channels) : Nat := word8888 ch.r.toNat ch.g.toNat ch.b.toNat ch.a.toNat

/-- The RGB565 word of a color register's channels (10_state.md R23). -/
def Channels.n565 (ch : Channels) : Nat := word565 ch.r.toNat ch.g.toNat ch.b.toNat

/-- The RGB5A3 word of a color register's channels (40_codec.md R87). -/
def Channels.n5A3 (ch : Channels) (am : Bool) : Nat := word5A3 ch.r.toNat ch.g.toNat ch.b.toNat ch.a.toNat am

/-- `ch` holds the four channel values of a 565 word `w`; alpha is opaque (40_codec.md R86). -/
def Channels.are565 (ch : Channels) (w : Nat) : Prop :=
  ch.r.toNat = wide5 (bitsOf w 11 5) ∧ ch.g.toNat = wide6 (bitsOf w 5 6) ∧ ch.b.toNat = wide5 (bitsOf w 0 5) ∧
    ch.a.toNat = 255

/-- `ch` holds the four channel values of a 5A3 word `w` in the mode its bit 15 gives (40_codec.md R88). -/
def Channels.are5A3 (ch : Channels) (w : Nat) : Prop :=
  if bitsOf w 15 1 = 1 then
    ch.r.toNat = wide5 (bitsOf w 10 5) ∧ ch.g.toNat = wide5 (bitsOf w 5 5) ∧ ch.b.toNat = wide5 (bitsOf w 0 5) ∧
      ch.a.toNat = 255
  else
    ch.r.toNat = wide4 (bitsOf w 8 4) ∧ ch.g.toNat = wide4 (bitsOf w 4 4) ∧ ch.b.toNat = wide4 (bitsOf w 0 4) ∧
      ch.a.toNat = wide3 (bitsOf w 12 3)

/-- `min(255, max(0, x))` (40_codec.md R91). -/
def clamped (x : Int) : Int := min 255 (max 0 x)

/-- `0 <= x <= 255` (40_codec.md R91). -/
def fits8 (x : Int) : Prop := 0 ≤ x ∧ x ≤ 255

/-- How a command uses OPA (30_encoding.md R68). -/
inductive OpaUse where
  | unread | lowHalf | whole
  deriving DecidableEq, Repr

/-- Which commands read OPA, and how much of it (30_encoding.md R68). -/
def opaUse : Instr → OpaUse
  | .clr _ => .unread
  | .ld32 _ _ => .whole
  | .ld565 _ => .lowHalf
  | .ld5a3 _ => .lowHalf
  | .ldch _ _ _ => .whole
  | .setch _ _ => .whole
  | .setfmt _ _ _ => .unread
  | .mov _ _ => .unread
  | .cvt565to32 => .lowHalf
  | .cvt565to24 => .lowHalf
  | .cvt5a3to32 => .lowHalf
  | .cvt5a3to24 => .lowHalf
  | .cvt32to565 => .whole
  | .cvt32to5a3 _ => .whole
  | .add _ _ _ => .unread
  | .sub _ _ _ => .unread
  | .mul _ _ _ => .unread

/-- The 17 opcodes of the opcode map (30_encoding.md R66). -/
def assignedOpcodes : List Nat :=
  [0x10, 0x11, 0x12, 0x13, 0x14, 0x15, 0x16, 0x17, 0x20, 0x21, 0x22, 0x23, 0x24, 0x25, 0x30, 0x31, 0x32]

/-- The opcodes that use no `F` bit; that use `CD`; that use `CA`; that use `CB` (30_encoding.md R66, R67). -/
def opcodesWithoutF : List Nat := [0x10, 0x12, 0x13, 0x17, 0x20, 0x21, 0x22, 0x23, 0x24, 0x30, 0x31, 0x32]
def opcodesWithCD : List Nat := [0x10, 0x11, 0x12, 0x13, 0x14, 0x15, 0x16, 0x17, 0x30, 0x31, 0x32]
def opcodesWithCA : List Nat := [0x17, 0x30, 0x31, 0x32]
def opcodesWithCB : List Nat := [0x30, 0x31, 0x32]

/-- The list of illegal words in 30_encoding.md R64, clause by clause, for a word with the number `n`. -/
def listedIllegal (n : Nat) : Prop :=
  bitsOf n 24 8 ∉ assignedOpcodes ∨
  bitsOf n 20 4 ≠ 0 ∨ bitsOf n 12 4 ≠ 0 ∨
  (bitsOf n 24 8 ∈ opcodesWithoutF ∧ bitsOf n 16 4 ≠ 0) ∨
  (bitsOf n 24 8 ∈ [0x11, 0x25] ∧ 2 ≤ bitsOf n 16 4) ∨
  (bitsOf n 24 8 ∈ [0x14, 0x15] ∧ 4 ≤ bitsOf n 16 4) ∨
  (bitsOf n 24 8 ∉ opcodesWithCD ∧ bitsOf n 8 4 ≠ 0) ∨
  (bitsOf n 24 8 ∉ opcodesWithCA ∧ bitsOf n 4 4 ≠ 0) ∨
  (bitsOf n 24 8 ∉ opcodesWithCB ∧ bitsOf n 0 4 ≠ 0) ∨
  (bitsOf n 24 8 ∈ opcodesWithCD ∧ 4 ≤ bitsOf n 8 4) ∨
  (bitsOf n 24 8 ∈ opcodesWithCA ∧ 4 ≤ bitsOf n 4 4) ∨
  (bitsOf n 24 8 ∈ opcodesWithCB ∧ 4 ≤ bitsOf n 0 4) ∨
  (bitsOf n 24 8 = 0x16 ∧ 6 ≤ bitsOf n 16 3) ∨
  (bitsOf n 24 8 = 0x16 ∧ bitsOf n 19 1 = 1 ∧ bitsOf n 16 3 ≠ 5)

end Sys2Proof.Machine
end

