-- ==== Sys2Proof/Laws/State.lean ====
section
/-! SUPPORT. Laws/State.lean: one lemma per field per update of the state, true by rfl, and the register file's
read-after-write laws. -/

namespace Sys2Proof.Machine

/-! ### The register files -/

@[simp] theorem Channels.get_set_same (ch : Channels) (k : Channel) (v : Byte) : (ch.set k v).get k = v := by
  cases k <;> rfl

theorem Channels.get_set_other (ch : Channels) {k j : Channel} (v : Byte) (h : j ≠ k) :
    (ch.set k v).get j = ch.get j := by
  cases k <;> cases j <;> first | rfl | exact absurd rfl h

@[simp] theorem ColorRegs.get_set_same (f : ColorRegs) (i : CReg) (c : ColorReg) : (f.set i c).get i = c := by
  cases i <;> rfl

theorem ColorRegs.get_set_other (f : ColorRegs) {i j : CReg} (c : ColorReg) (h : j ≠ i) :
    (f.set i c).get j = f.get j := by
  cases i <;> cases j <;> first | rfl | exact absurd rfl h

@[simp] theorem ColorRegs.set_set (f : ColorRegs) (i : CReg) (c d : ColorReg) : (f.set i c).set i d = f.set i d := by
  cases i <;> rfl

@[simp] theorem ColorRegs.set_get (f : ColorRegs) (i : CReg) : f.set i (f.get i) = f := by
  cases i <;> rfl

/-! ### setCr -/

@[simp] theorem State.setCr_opa (s : State) (i : CReg) (c : ColorReg) : (s.setCr i c).opa = s.opa := rfl
@[simp] theorem State.setCr_opb (s : State) (i : CReg) (c : ColorReg) : (s.setCr i c).opb = s.opb := rfl
@[simp] theorem State.setCr_opc (s : State) (i : CReg) (c : ColorReg) : (s.setCr i c).opc = s.opc := rfl
@[simp] theorem State.setCr_opd (s : State) (i : CReg) (c : ColorReg) : (s.setCr i c).opd = s.opd := rfl
@[simp] theorem State.setCr_result (s : State) (i : CReg) (c : ColorReg) : (s.setCr i c).result = s.result := rfl
@[simp] theorem State.setCr_ill (s : State) (i : CReg) (c : ColorReg) : (s.setCr i c).ill = s.ill := rfl
@[simp] theorem State.setCr_ram (s : State) (i : CReg) (c : ColorReg) : (s.setCr i c).ram = s.ram := rfl
@[simp] theorem State.setCr_port (s : State) (i : CReg) (c : ColorReg) : (s.setCr i c).port = s.port := rfl
@[simp] theorem State.setCr_replies (s : State) (i : CReg) (c : ColorReg) : (s.setCr i c).replies = s.replies := rfl

@[simp] theorem State.getCr_setCr_same (s : State) (i : CReg) (c : ColorReg) : (s.setCr i c).getCr i = c := by
  simp [State.getCr, State.setCr]

theorem State.getCr_setCr_other (s : State) {i j : CReg} (c : ColorReg) (h : j ≠ i) :
    (s.setCr i c).getCr j = s.getCr j := by
  simp [State.getCr, State.setCr, ColorRegs.get_set_other _ _ h]

theorem State.getCr_setCr (s : State) (i j : CReg) (c : ColorReg) :
    (s.setCr i c).getCr j = if j = i then c else s.getCr j := by
  split
  · next h => subst h; simp
  · next h => exact s.getCr_setCr_other c h

@[simp] theorem State.setCr_setCr (s : State) (i : CReg) (c d : ColorReg) :
    (s.setCr i c).setCr i d = s.setCr i d := by
  simp [State.setCr]

@[simp] theorem State.setCr_getCr (s : State) (i : CReg) : s.setCr i (s.getCr i) = s := by
  simp [State.setCr, State.getCr]

/-! ### convertTo -/

@[simp] theorem State.convertTo_cr (s : State) (w : Word) (b : Bool) : (s.convertTo w b).cr = s.cr := rfl
@[simp] theorem State.convertTo_opa (s : State) (w : Word) (b : Bool) : (s.convertTo w b).opa = s.opa := rfl
@[simp] theorem State.convertTo_opb (s : State) (w : Word) (b : Bool) : (s.convertTo w b).opb = s.opb := rfl
@[simp] theorem State.convertTo_opc (s : State) (w : Word) (b : Bool) : (s.convertTo w b).opc = s.opc := rfl
@[simp] theorem State.convertTo_opd (s : State) (w : Word) (b : Bool) : (s.convertTo w b).opd = s.opd := rfl
@[simp] theorem State.convertTo_result (s : State) (w : Word) (b : Bool) : (s.convertTo w b).result = w := rfl
@[simp] theorem State.convertTo_ill (s : State) (w : Word) (b : Bool) : (s.convertTo w b).ill = s.ill := rfl
@[simp] theorem State.convertTo_ram (s : State) (w : Word) (b : Bool) : (s.convertTo w b).ram = b := rfl
@[simp] theorem State.convertTo_port (s : State) (w : Word) (b : Bool) : (s.convertTo w b).port = s.port := rfl
@[simp] theorem State.convertTo_replies (s : State) (w : Word) (b : Bool) :
    (s.convertTo w b).replies = s.replies := rfl
@[simp] theorem State.getCr_convertTo (s : State) (w : Word) (b : Bool) (i : CReg) :
    (s.convertTo w b).getCr i = s.getCr i := rfl

/-! ### raiseIllegal -/

@[simp] theorem State.raiseIllegal_cr (s : State) : s.raiseIllegal.cr = s.cr := rfl
@[simp] theorem State.raiseIllegal_opa (s : State) : s.raiseIllegal.opa = s.opa := rfl
@[simp] theorem State.raiseIllegal_opb (s : State) : s.raiseIllegal.opb = s.opb := rfl
@[simp] theorem State.raiseIllegal_opc (s : State) : s.raiseIllegal.opc = s.opc := rfl
@[simp] theorem State.raiseIllegal_opd (s : State) : s.raiseIllegal.opd = s.opd := rfl
@[simp] theorem State.raiseIllegal_result (s : State) : s.raiseIllegal.result = s.result := rfl
@[simp] theorem State.raiseIllegal_ill (s : State) : s.raiseIllegal.ill = true := rfl
@[simp] theorem State.raiseIllegal_ram (s : State) : s.raiseIllegal.ram = s.ram := rfl
@[simp] theorem State.raiseIllegal_port (s : State) : s.raiseIllegal.port = s.port := rfl
@[simp] theorem State.raiseIllegal_replies (s : State) : s.raiseIllegal.replies = s.replies := rfl
@[simp] theorem State.getCr_raiseIllegal (s : State) (i : CReg) : s.raiseIllegal.getCr i = s.getCr i := rfl

/-! ### writeStatus -/

@[simp] theorem State.writeStatus_cr (s : State) (d : Word) : (s.writeStatus d).cr = s.cr := rfl
@[simp] theorem State.writeStatus_opa (s : State) (d : Word) : (s.writeStatus d).opa = s.opa := rfl
@[simp] theorem State.writeStatus_opb (s : State) (d : Word) : (s.writeStatus d).opb = s.opb := rfl
@[simp] theorem State.writeStatus_opc (s : State) (d : Word) : (s.writeStatus d).opc = s.opc := rfl
@[simp] theorem State.writeStatus_opd (s : State) (d : Word) : (s.writeStatus d).opd = s.opd := rfl
@[simp] theorem State.writeStatus_result (s : State) (d : Word) : (s.writeStatus d).result = s.result := rfl
@[simp] theorem State.writeStatus_ill (s : State) (d : Word) :
    (s.writeStatus d).ill = (s.ill && !d.getLsbD 0) := rfl
@[simp] theorem State.writeStatus_ram (s : State) (d : Word) : (s.writeStatus d).ram = s.ram := rfl
@[simp] theorem State.writeStatus_port (s : State) (d : Word) : (s.writeStatus d).port = s.port := rfl
@[simp] theorem State.writeStatus_replies (s : State) (d : Word) : (s.writeStatus d).replies = s.replies := rfl
@[simp] theorem State.getCr_writeStatus (s : State) (d : Word) (i : CReg) :
    (s.writeStatus d).getCr i = s.getCr i := rfl

/-! ### assertReset -/

@[simp] theorem State.assertReset_opa (s : State) : s.assertReset.opa = 0 := rfl
@[simp] theorem State.assertReset_opb (s : State) : s.assertReset.opb = 0 := rfl
@[simp] theorem State.assertReset_opc (s : State) : s.assertReset.opc = 0 := rfl
@[simp] theorem State.assertReset_opd (s : State) : s.assertReset.opd = 0 := rfl
@[simp] theorem State.assertReset_result (s : State) : s.assertReset.result = 0 := rfl
@[simp] theorem State.assertReset_ill (s : State) : s.assertReset.ill = false := rfl
@[simp] theorem State.assertReset_ram (s : State) : s.assertReset.ram = false := rfl
@[simp] theorem State.assertReset_port (s : State) : s.assertReset.port = s.port := rfl
@[simp] theorem State.assertReset_replies (s : State) : s.assertReset.replies = s.replies := rfl
@[simp] theorem State.getCr_reset (i : CReg) : State.reset.getCr i = ColorReg.reset := by cases i <;> rfl
@[simp] theorem State.getCr_assertReset (s : State) (i : CReg) : s.assertReset.getCr i = ColorReg.reset := by
  cases i <;> rfl

/-! ### reply -/

@[simp] theorem State.reply_cr (s : State) (v : Word) : (s.reply v).cr = s.cr := rfl
@[simp] theorem State.reply_opa (s : State) (v : Word) : (s.reply v).opa = s.opa := rfl
@[simp] theorem State.reply_opb (s : State) (v : Word) : (s.reply v).opb = s.opb := rfl
@[simp] theorem State.reply_opc (s : State) (v : Word) : (s.reply v).opc = s.opc := rfl
@[simp] theorem State.reply_opd (s : State) (v : Word) : (s.reply v).opd = s.opd := rfl
@[simp] theorem State.reply_result (s : State) (v : Word) : (s.reply v).result = s.result := rfl
@[simp] theorem State.reply_ill (s : State) (v : Word) : (s.reply v).ill = s.ill := rfl
@[simp] theorem State.reply_ram (s : State) (v : Word) : (s.reply v).ram = s.ram := rfl
@[simp] theorem State.reply_port (s : State) (v : Word) : (s.reply v).port = s.port := rfl
@[simp] theorem State.reply_replies (s : State) (v : Word) : (s.reply v).replies = s.replies ++ [v] := rfl
@[simp] theorem State.getCr_reply (s : State) (v : Word) (i : CReg) : (s.reply v).getCr i = s.getCr i := rfl

/-! ### withPort and the events the port holds -/

@[simp] theorem State.withPort_cr (s : State) (es : List PortEvent) : (s.withPort es).cr = s.cr := rfl
@[simp] theorem State.withPort_opa (s : State) (es : List PortEvent) : (s.withPort es).opa = s.opa := rfl
@[simp] theorem State.withPort_opb (s : State) (es : List PortEvent) : (s.withPort es).opb = s.opb := rfl
@[simp] theorem State.withPort_opc (s : State) (es : List PortEvent) : (s.withPort es).opc = s.opc := rfl
@[simp] theorem State.withPort_opd (s : State) (es : List PortEvent) : (s.withPort es).opd = s.opd := rfl
@[simp] theorem State.withPort_result (s : State) (es : List PortEvent) : (s.withPort es).result = s.result := rfl
@[simp] theorem State.withPort_ill (s : State) (es : List PortEvent) : (s.withPort es).ill = s.ill := rfl
@[simp] theorem State.withPort_ram (s : State) (es : List PortEvent) : (s.withPort es).ram = s.ram := rfl
@[simp] theorem State.withPort_port (s : State) (es : List PortEvent) : (s.withPort es).port = es := rfl
@[simp] theorem State.withPort_replies (s : State) (es : List PortEvent) :
    (s.withPort es).replies = s.replies := rfl
@[simp] theorem State.getCr_withPort (s : State) (es : List PortEvent) (i : CReg) :
    (s.withPort es).getCr i = s.getCr i := rfl

end Sys2Proof.Machine
end

