-- ==== Sys2Proof/Laws/Codec.lean ====
section
/-! SUPPORT. Laws/Codec.lean: what the codec's functions do: each expansion keeps its field on top (40_codec.md R89,
R90), and clamping lands in [0,255] (R91). -/

namespace Sys2Proof.Machine

theorem expand3_top : ∀ v : BitVec 3, (expand3 v).extractLsb' 5 3 = v := by decide
theorem expand4_top : ∀ v : BitVec 4, (expand4 v).extractLsb' 4 4 = v := by decide
theorem expand5_top : ∀ v : BitVec 5, (expand5 v).extractLsb' 3 5 = v := by decide
theorem expand6_top : ∀ v : BitVec 6, (expand6 v).extractLsb' 2 6 = v := by decide

theorem clampInt_nonneg (x : Int) : 0 ≤ clampInt x := by unfold clampInt; omega
theorem clampInt_le (x : Int) : clampInt x ≤ 255 := by unfold clampInt; omega

/-- The stored channel, as an integer, is the clamped value. -/
theorem clamp8_toNat (x : Int) : ((clamp8 x).toNat : Int) = clampInt x := by
  have h0 := clampInt_nonneg x
  have h1 := clampInt_le x
  simp only [clamp8, BitVec.toNat_ofInt]
  omega

theorem inrange8_iff (x : Int) : inrange8 x = true ↔ 0 ≤ x ∧ x ≤ 255 := by simp [inrange8]

/-- A value in range is stored as it is. -/
theorem clampInt_of_inrange {x : Int} (h : inrange8 x = true) : clampInt x = x := by
  rw [inrange8_iff] at h
  unfold clampInt
  omega

@[simp] theorem decode565_a (w : Half) : (decode565 w).a = 0xFF := rfl

theorem decode5A3_noAlpha {w : Half} (h : w.getLsbD 15 = true) :
    (decode5A3 w).2 = false ∧ (decode5A3 w).1.a = 0xFF := by
  simp [decode5A3, h, opaqueAlpha]

theorem decode5A3_am (w : Half) : (decode5A3 w).2 = !w.getLsbD 15 := by
  unfold decode5A3
  split <;> simp_all

end Sys2Proof.Machine
end

