-- ==== Sys2Proof/Laws/Ops.lean ====
section
/-! SUPPORT. Laws/Ops.lean: what each shared operation does, said once; later proofs cite these and do not unfold the
operations. -/

namespace Sys2Proof.Machine

theorem State.resync_eq (s : State) (i : CReg) (ch : Channels) (am : Bool) :
    s.resync i ch am =
      s.setCr i ⟨ch, pack5A3 ch am, am, (s.getCr i).fmt, (s.getCr i).valid⟩ := rfl

/-- A whole-value assignment writes one color register, whole. -/
theorem State.assign_eq (s : State) (i : CReg) (ch : Channels) (am : Bool) (t : Format) (ok : Bool) :
    s.assign i ch am t ok = s.setCr i ⟨ch, pack5A3 ch am, am, t, ok⟩ := by
  simp [State.assign, State.setValid, State.setFmt, State.resync]

/-- SETCH writes one color register: its channels, P5A3 and VALID. -/
theorem State.resync_setValid_eq (s : State) (i : CReg) (ch : Channels) (am ok : Bool) :
    (s.resync i ch am).setValid i ok = s.setCr i ⟨ch, pack5A3 ch am, am, (s.getCr i).fmt, ok⟩ := by
  simp [State.setValid, State.resync]

/-- SETFMT writes one color register: its FMT and AM. -/
theorem State.setFmt_setAm_eq (s : State) (i : CReg) (t : Format) (am : Bool) :
    (s.setFmt i t).setAm i am =
      s.setCr i ⟨(s.getCr i).ch, (s.getCr i).p5a3, am, t, (s.getCr i).valid⟩ := by
  simp [State.setAm, State.setFmt]

/-- A blend writes one color register, whole, from the sources as they were. -/
theorem State.blend_eq (s : State) (op : Int → Int → Int) (cd ca cb : CReg) :
    s.blend op cd ca cb =
      s.setCr cd
        ⟨(blendLanes op (s.getCr ca).ch (s.getCr cb).ch).clamp,
         pack5A3 (blendLanes op (s.getCr ca).ch (s.getCr cb).ch).clamp (s.getCr ca).am,
         (s.getCr ca).am, (s.getCr ca).fmt,
         (blendLanes op (s.getCr ca).ch (s.getCr cb).ch).inRange⟩ := by
  simp only [State.blend, State.assign_eq]

/-- Writing one color register leaves all other state as it was. -/
theorem State.setCr_sameButColors (s : State) (i : CReg) (c : ColorReg) : SameButColors s (s.setCr i c) :=
  ⟨rfl, rfl, rfl, rfl, rfl, rfl, rfl, rfl, rfl⟩

/-- Without `hasa`, LDCH does not look at OPD (30_encoding.md R68). -/
theorem State.rawOperands_false (s : State) :
    s.rawOperands false = ⟨sext32 s.opa, sext32 s.opb, sext32 s.opc, 255⟩ := rfl

/-! ### One equation for each meaning -/

theorem exec_clr (cd : CReg) (s : State) :
    exec (.clr cd) s = .next (s.setCr cd ⟨⟨0, 0, 0, 0⟩, pack5A3 ⟨0, 0, 0, 0⟩ false, false, .rgb888, true⟩) :=
  congrArg _ (s.assign_eq ..)

theorem exec_ld32 (cd : CReg) (am : Bool) (s : State) :
    exec (.ld32 cd am) s =
      .next (s.setCr cd ⟨unpack32 s.opaRgba32, pack5A3 (unpack32 s.opaRgba32) am, am, fmtOfAm am, true⟩) :=
  congrArg _ (s.assign_eq ..)

theorem exec_ld565 (cd : CReg) (s : State) :
    exec (.ld565 cd) s =
      .next (s.setCr cd ⟨decode565 s.opaHalf, pack5A3 (decode565 s.opaHalf) false, false, .rgb565, true⟩) :=
  congrArg _ (s.assign_eq ..)

theorem exec_ld5a3 (cd : CReg) (s : State) :
    exec (.ld5a3 cd) s =
      .next (s.setCr cd ⟨(decode5A3 s.opaHalf).1, pack5A3 (decode5A3 s.opaHalf).1 (decode5A3 s.opaHalf).2,
        (decode5A3 s.opaHalf).2, .rgb5a3, true⟩) :=
  congrArg _ (s.assign_eq ..)

theorem exec_ldch (cd : CReg) (am hasa : Bool) (s : State) :
    exec (.ldch cd am hasa) s =
      .next (s.setCr cd ⟨(s.rawOperands hasa).clamp, pack5A3 (s.rawOperands hasa).clamp am, am, fmtOfAm am,
        (s.rawOperands hasa).inRange⟩) :=
  congrArg _ (s.assign_eq ..)

theorem exec_setch (cd : CReg) (k : Channel) (s : State) :
    exec (.setch cd k) s =
      .next (s.setCr cd ⟨(s.getCr cd).ch.set k (clamp8 s.opaChannel),
        pack5A3 ((s.getCr cd).ch.set k (clamp8 s.opaChannel)) (s.getCr cd).am, (s.getCr cd).am, (s.getCr cd).fmt,
        inrange8 s.opaChannel⟩) :=
  congrArg _ (s.resync_setValid_eq ..)

theorem exec_setfmt (cd : CReg) (fmt : Format) (am : Bool) (s : State) :
    exec (.setfmt cd fmt am) s =
      .next (s.setCr cd ⟨(s.getCr cd).ch, (s.getCr cd).p5a3, amOfFmt fmt am, fmt, (s.getCr cd).valid⟩) :=
  congrArg _ (s.setFmt_setAm_eq ..)

theorem exec_mov (cd ca : CReg) (s : State) :
    exec (.mov cd ca) s =
      .next (s.setCr cd ⟨(s.getCr ca).ch, pack5A3 (s.getCr ca).ch (s.getCr ca).am, (s.getCr ca).am,
        (s.getCr ca).fmt, (s.getCr ca).valid⟩) :=
  congrArg _ (s.assign_eq ..)

theorem exec_cvt565to32 (s : State) :
    exec .cvt565to32 s = .next (s.convertTo (rgba32 (decode565 s.opaHalf)) false) := rfl

theorem exec_cvt565to24 (s : State) :
    exec .cvt565to24 s = .next (s.convertTo (rgb24 (decode565 s.opaHalf)) false) := rfl

theorem exec_cvt5a3to32 (s : State) :
    exec .cvt5a3to32 s = .next (s.convertTo (rgba32 (decode5A3 s.opaHalf).1) (decode5A3 s.opaHalf).2) := rfl

theorem exec_cvt5a3to24 (s : State) :
    exec .cvt5a3to24 s = .next (s.convertTo (rgb24 (decode5A3 s.opaHalf).1) (decode5A3 s.opaHalf).2) := rfl

theorem exec_cvt32to565 (s : State) :
    exec .cvt32to565 s =
      .next (s.convertTo ((pack565 (unpack32 s.opaRgba32).r (unpack32 s.opaRgba32).g
        (unpack32 s.opaRgba32).b).setWidth 32) false) := rfl

theorem exec_cvt32to5a3 (am : Bool) (s : State) :
    exec (.cvt32to5a3 am) s = .next (s.convertTo ((pack5A3 (unpack32 s.opaRgba32) am).setWidth 32) am) := rfl

/-- The color register a blend leaves, from its two sources. -/
def blended (op : Int → Int → Int) (x y : ColorReg) : ColorReg :=
  ⟨(blendLanes op x.ch y.ch).clamp, pack5A3 (blendLanes op x.ch y.ch).clamp x.am, x.am, x.fmt,
    (blendLanes op x.ch y.ch).inRange⟩

theorem exec_add (cd ca cb : CReg) (s : State) :
    exec (.add cd ca cb) s = .next (s.setCr cd (blended (fun x y => x + y) (s.getCr ca) (s.getCr cb))) :=
  congrArg _ (s.blend_eq ..)

theorem exec_sub (cd ca cb : CReg) (s : State) :
    exec (.sub cd ca cb) s = .next (s.setCr cd (blended (fun x y => x - y) (s.getCr ca) (s.getCr cb))) :=
  congrArg _ (s.blend_eq ..)

theorem exec_mul (cd ca cb : CReg) (s : State) :
    exec (.mul cd ca cb) s = .next (s.setCr cd (blended (fun x y => x * y) (s.getCr ca) (s.getCr cb))) :=
  congrArg _ (s.blend_eq ..)

/-- Every load and every blend writes one color register, the one `destOf` names, and every conversion only RESULT and
RAM. -/
theorem exec_cases (i : Instr) (s : State) :
    (∃ cd c, destOf i = some cd ∧ isConversion i = false ∧ exec i s = .next (s.setCr cd c)) ∨
    (∃ w b, destOf i = none ∧ isConversion i = true ∧ exec i s = .next (s.convertTo w b)) := by
  cases i with
  | clr cd => exact .inl ⟨cd, _, rfl, rfl, exec_clr ..⟩
  | ld32 cd am => exact .inl ⟨cd, _, rfl, rfl, exec_ld32 ..⟩
  | ld565 cd => exact .inl ⟨cd, _, rfl, rfl, exec_ld565 ..⟩
  | ld5a3 cd => exact .inl ⟨cd, _, rfl, rfl, exec_ld5a3 ..⟩
  | ldch cd am hasa => exact .inl ⟨cd, _, rfl, rfl, exec_ldch ..⟩
  | setch cd k => exact .inl ⟨cd, _, rfl, rfl, exec_setch ..⟩
  | setfmt cd t am => exact .inl ⟨cd, _, rfl, rfl, exec_setfmt ..⟩
  | mov cd ca => exact .inl ⟨cd, _, rfl, rfl, exec_mov ..⟩
  | cvt565to32 => exact .inr ⟨_, _, rfl, rfl, exec_cvt565to32 ..⟩
  | cvt565to24 => exact .inr ⟨_, _, rfl, rfl, exec_cvt565to24 ..⟩
  | cvt5a3to32 => exact .inr ⟨_, _, rfl, rfl, exec_cvt5a3to32 ..⟩
  | cvt5a3to24 => exact .inr ⟨_, _, rfl, rfl, exec_cvt5a3to24 ..⟩
  | cvt32to565 => exact .inr ⟨_, _, rfl, rfl, exec_cvt32to565 ..⟩
  | cvt32to5a3 am => exact .inr ⟨_, _, rfl, rfl, exec_cvt32to5a3 ..⟩
  | add cd ca cb => exact .inl ⟨cd, _, rfl, rfl, exec_add ..⟩
  | sub cd ca cb => exact .inl ⟨cd, _, rfl, rfl, exec_sub ..⟩
  | mul cd ca cb => exact .inl ⟨cd, _, rfl, rfl, exec_mul ..⟩

end Sys2Proof.Machine
end

