-- ==== Sys2Proof/Laws/Port.lean ====
section
/-! SUPPORT. Laws/Port.lean: what one step can do, said once. -/

namespace Sys2Proof.Machine

theorem step_idle {s : State} (h : s.port = []) : step s = .next s := by
  simp [step, State.portStep, h]

theorem step_event {s : State} {e : PortEvent} {rest : List PortEvent} (h : s.port = e :: rest) :
    step s = (s.withPort rest).serve e := by
  simp [step, State.portStep, h, State.withPort]

/-- A step on a state with an event at the front of the port serves that event on the rest. -/
theorem step_withPort (s : State) (e : PortEvent) (rest : List PortEvent) :
    step (s.withPort (e :: rest)) = (s.withPort rest).serve e :=
  step_event rfl

/-- A run takes its first step, then the others. -/
theorem runSteps_succ {s t : State} (n : Nat) (h : step s = .next t) : runSteps (n + 1) s = runSteps n t := by
  simp [runSteps, h]

/-- A run of one step is that step. -/
theorem runSteps_one (s : State) : runSteps 1 s = step s := by
  unfold runSteps
  cases step s <;> rfl

/-- No command looks at the port or touches it (20_memory.md R54). -/
theorem exec_withPort (i : Instr) (s : State) (es : List PortEvent) :
    ∃ t, exec i s = .next t ∧ exec i (s.withPort es) = .next (t.withPort es) := by
  cases i with
  | clr cd => exact ⟨_, exec_clr .., exec_clr ..⟩
  | ld32 cd am => exact ⟨_, exec_ld32 .., exec_ld32 ..⟩
  | ld565 cd => exact ⟨_, exec_ld565 .., exec_ld565 ..⟩
  | ld5a3 cd => exact ⟨_, exec_ld5a3 .., exec_ld5a3 ..⟩
  | ldch cd am hasa => exact ⟨_, exec_ldch .., exec_ldch ..⟩
  | setch cd k => exact ⟨_, exec_setch .., exec_setch ..⟩
  | setfmt cd t am => exact ⟨_, exec_setfmt .., exec_setfmt ..⟩
  | mov cd ca => exact ⟨_, exec_mov .., exec_mov ..⟩
  | cvt565to32 => exact ⟨_, exec_cvt565to32 .., exec_cvt565to32 ..⟩
  | cvt565to24 => exact ⟨_, exec_cvt565to24 .., exec_cvt565to24 ..⟩
  | cvt5a3to32 => exact ⟨_, exec_cvt5a3to32 .., exec_cvt5a3to32 ..⟩
  | cvt5a3to24 => exact ⟨_, exec_cvt5a3to24 .., exec_cvt5a3to24 ..⟩
  | cvt32to565 => exact ⟨_, exec_cvt32to565 .., exec_cvt32to565 ..⟩
  | cvt32to5a3 am => exact ⟨_, exec_cvt32to5a3 .., exec_cvt32to5a3 ..⟩
  | add cd ca cb => exact ⟨_, exec_add .., exec_add ..⟩
  | sub cd ca cb => exact ⟨_, exec_sub .., exec_sub ..⟩
  | mul cd ca cb => exact ⟨_, exec_mul .., exec_mul ..⟩

/-- Every offset of the map is a multiple of 4 (20_memory.md R41, R42). -/
theorem offset_aligned (r : RegName) : r.offset.toNat % 4 = 0 := by
  cases r <;> first | rfl | (rename_i n; cases n <;> rfl)

/-- The map finds each register at its own offset (20_memory.md R41). -/
@[simp] theorem regAt_offset (r : RegName) : regAt r.offset = some r := by
  cases r <;> first | rfl | (rename_i n; cases n <;> rfl)

/-- A 32-bit read at a multiple of 4 returns what the window reads (20_memory.md R41, R47). -/
theorem serve_readAt (s : State) {off : Offset} (h : off.toNat % 4 = 0) :
    s.serve (readAt off) = .next (s.reply (s.readWindow off)) := by
  simp [State.serve, State.access, readAt, Access.inContract, h]

/-- A 32-bit write at a multiple of 4 is the window's write (20_memory.md R47). -/
theorem serve_writeAt (s : State) {off : Offset} (d : Word) (h : off.toNat % 4 = 0) :
    s.serve (writeAt off d) = s.writeWindow off d := by
  simp [State.serve, State.access, writeAt, Access.inContract, h]

@[simp] theorem writeWindow_offset (s : State) (r : RegName) (d : Word) :
    s.writeWindow r.offset d = s.writeReg r d := by
  simp [State.writeWindow]

@[simp] theorem readWindow_offset (s : State) (r : RegName) : s.readWindow r.offset = s.readReg r := by
  simp [State.readWindow]

/-- A write to CMD at the port runs the word (10_state.md R35). -/
@[simp] theorem serve_commandWrite (s : State) (w : Word) : s.serve (commandWrite w) = s.runCommand w := by
  rw [commandWrite, serve_writeAt s w (offset_aligned .cmd), writeWindow_offset]
  rfl

/-- What a write to a register other than CMD leaves (20_memory.md R45, R47). -/
def regWritten (s : State) (r : RegName) (d : Word) : State :=
  match r with
  | .opa => { s with opa := d }
  | .opb => { s with opb := d }
  | .opc => { s with opc := d }
  | .opd => { s with opd := d }
  | .status => s.writeStatus d
  | _ => s

theorem writeReg_cases (s : State) (r : RegName) (d : Word) :
    (r = .cmd ∧ s.writeReg r d = s.runCommand d) ∨ (r ≠ .cmd ∧ s.writeReg r d = .next (regWritten s r d)) := by
  cases r <;> first | exact .inl ⟨rfl, rfl⟩ | exact .inr ⟨by simp, rfl⟩

/-- The offset of CMD is the only one the map gives it (20_memory.md R41). -/
theorem regAt_eq_cmd : ∀ off : Offset, regAt off = some .cmd → off = 0x000 := by
  intro off h
  unfold regAt at h
  split at h
  · unfold crRegAt at h
    split at h <;> simp_all
  · split at h <;> simp_all
    next h0 => exact BitVec.eq_of_toNat_eq (by simpa using h0)

/-- Everything one step that answers a next state can have done. -/
theorem step_cases {s t : State} (h : step s = .next t) :
    (s.port = [] ∧ t = s) ∨
    ∃ e rest, s.port = e :: rest ∧
      ((e = .reset ∧ t = (s.withPort rest).assertReset) ∨
       ∃ a, e = .access a ∧ a.inContract = true ∧
         ((a.kind = .read ∧ t = (s.withPort rest).reply ((s.withPort rest).readWindow a.offset)) ∨
          ∃ d, a.kind = .write d ∧
            ((a.offset = 0x000 ∧ ∃ i, decode d = .ok i ∧ exec i (s.withPort rest) = .next t) ∨
             (a.offset = 0x000 ∧ (∃ r, decode d = .error r) ∧ t = (s.withPort rest).raiseIllegal) ∨
             (∃ r, r ≠ .cmd ∧ regAt a.offset = some r ∧ t = regWritten (s.withPort rest) r d) ∨
             (regAt a.offset = none ∧ t = s.withPort rest)))) := by
  cases hp : s.port with
  | nil => rw [step_idle hp] at h; cases h; exact .inl ⟨rfl, rfl⟩
  | cons e rest =>
    rw [step_event hp] at h
    refine .inr ⟨e, rest, rfl, ?_⟩
    cases e with
    | reset => cases h; exact .inl ⟨rfl, rfl⟩
    | accessDuringReset a => cases h
    | access a =>
      refine .inr ⟨a, rfl, ?_⟩
      simp only [State.serve, State.access] at h
      split at h
      · next hc =>
        refine ⟨hc, ?_⟩
        cases hk : a.kind with
        | read => rw [hk] at h; cases h; exact .inl ⟨rfl, rfl⟩
        | write d =>
          rw [hk] at h
          refine .inr ⟨d, rfl, ?_⟩
          simp only [State.writeWindow] at h
          cases hr : regAt a.offset with
          | none => rw [hr] at h; cases h; exact .inr (.inr (.inr ⟨rfl, rfl⟩))
          | some r =>
            rw [hr] at h
            rcases writeReg_cases (s.withPort rest) r d with ⟨rfl, hw⟩ | ⟨hne, hw⟩
            · simp only [hw, State.runCommand] at h
              have h0 := regAt_eq_cmd _ hr
              cases hd : decode d with
              | ok i => rw [hd] at h; exact .inl ⟨h0, i, rfl, h⟩
              | error r => rw [hd] at h; cases h; exact .inr (.inl ⟨h0, ⟨r, rfl⟩, rfl⟩)
            · simp only [hw] at h
              cases h
              exact .inr (.inr (.inl ⟨r, hne, rfl, rfl⟩))
      · cases h

end Sys2Proof.Machine
end

