-- ==== Sys2Proof/Certificates/Slice0/Obligations.lean ====
section
/-! DEFINITION. Certificates/Slice0/Obligations.lean: the statements for the provers, file by file of spec/. Words and
channel values are said as numbers (Safety.lean), not with the shifts the meanings use. -/

open Sys2Proof Sys2Proof.Machine

/-! ### Reset (10_state.md R39; 70_reset_and_hazards.md R180, R182) -/

/-- 10_state.md R39: the reset value of every piece of state, what the window then reads, and that CLR gives the same
register. -/
def Obligations.ResetValuesOfEveryRegister : Prop :=
  (∀ n, State.reset.getCr n = ⟨⟨0, 0, 0, 0⟩, 0x8000, false, .rgb888, true⟩) ∧
  State.reset.opa = 0 ∧ State.reset.opb = 0 ∧ State.reset.opc = 0 ∧ State.reset.opd = 0 ∧
  State.reset.result = 0 ∧ State.reset.ill = false ∧ State.reset.ram = false ∧
  State.reset.readWindow 0x018 = 0x00000000 ∧ State.reset.readWindow 0x01C = 0x4C435501 ∧
  State.reset.readWindow 0x020 = 0x00000004 ∧
  (∀ n, State.reset.readReg (.crP32 n) = 0x00000000 ∧ State.reset.readReg (.crP565 n) = 0x0000 ∧
    State.reset.readReg (.crMeta n) = 0x00000002) ∧
  (∀ n (s : State), exec (.clr n) s = .next (s.setCr n (State.reset.getCr n)))

/-- 70_reset_and_hazards.md R180: the reset input puts every piece of state at its reset value, from any state. -/
def Obligations.ResetInputRestoresEveryRegister : Prop :=
  ∀ (s : State) rest, ∃ t, step (s.withPort (.reset :: rest)) = .next t ∧
    (∀ n, t.getCr n = ⟨⟨0, 0, 0, 0⟩, 0x8000, false, .rgb888, true⟩) ∧
    t.opa = 0 ∧ t.opb = 0 ∧ t.opc = 0 ∧ t.opd = 0 ∧ t.result = 0 ∧ t.ill = false ∧ t.ram = false

/-- After reset every admitted access is taken at once, and any legal command can be the first
(70_reset_and_hazards.md section 1). That reset keeps the events waiting behind it, `t.port = rest`, on which the other
clauses stand, is the model's choice (log entry 14). -/
def Obligations.AccessesAreAcceptedAtOnceAfterReset : Prop :=
  ∀ (s : State) rest, ∃ t, step (s.withPort (.reset :: rest)) = .next t ∧ t.port = rest ∧
    (∀ e tail, rest = e :: tail → e.admitted = true → ∃ u, step t = .next u ∧ u.port = tail) ∧
    (∀ w tail, rest = commandWrite w :: tail → legalWord w = true →
      ∃ i u, decode w = .ok i ∧ step t = .next u ∧ exec i (t.withPort tail) = .next u ∧ u.ill = false)

/-! ### The register window (20_memory.md) -/

/-- 20_memory.md R41: what a read of each mapped offset returns, for `CRn` at `0x100 + 0x10·n`. -/
def Obligations.RegisterMapReadValues : Prop :=
  ∀ (s : State), s.readWindow 0x000 = 0 ∧ s.readWindow 0x004 = s.opa ∧ s.readWindow 0x008 = s.opb ∧
    s.readWindow 0x00C = s.opc ∧ s.readWindow 0x010 = s.opd ∧ s.readWindow 0x014 = s.result ∧
    (s.readWindow 0x018).toNat = s.ill.toNat + 2 * s.ram.toNat ∧
    s.readWindow 0x01C = 0x4C435501 ∧ s.readWindow 0x020 = 0x00000004 ∧
    ∀ n, (s.readWindow (BitVec.ofNat 12 (0x100 + 0x10 * n.code.toNat))).toNat = (s.getCr n).ch.n8888 ∧
      (s.readWindow (BitVec.ofNat 12 (0x104 + 0x10 * n.code.toNat))).toNat = (s.getCr n).ch.n565 ∧
      (s.readWindow (BitVec.ofNat 12 (0x108 + 0x10 * n.code.toNat))).toNat = (s.getCr n).p5a3.toNat ∧
      (s.readWindow (BitVec.ofNat 12 (0x10C + 0x10 * n.code.toNat))).toNat =
        (s.getCr n).am.toNat + 2 * (s.getCr n).valid.toNat + 16 * (s.getCr n).fmt.code.toNat

/-- 10_state.md R28: P32 and P565 are the words of the channels, in every state. -/
def Obligations.ViewsAlwaysMatchTheChannels : Prop :=
  ∀ (s : State) n, (s.readReg (.crP32 n)).toNat = (s.getCr n).ch.n8888 ∧ (s.readReg (.crP565 n)).toNat = (s.getCr n).ch.n565

/-- 20_memory.md R44: an unmapped word offset reads 0 and ignores writes, and no state changes. -/
def Obligations.UnmappedOffsetsReadZeroIgnoreWrites : Prop :=
  ∀ (s : State) rest off d, off.toNat % 4 = 0 → 0x020 < off.toNat → (off.toNat < 0x100 ∨ 0x140 ≤ off.toNat) →
    step (s.withPort (readAt off :: rest)) = .next ((s.withPort rest).reply 0) ∧
    step (s.withPort (writeAt off d :: rest)) = .next (s.withPort rest)

/-- 20_memory.md R45: a write to a read-only register is ignored, CMD reads 0, and a STATUS write clears ILL where data
bit 0 is set and changes nothing else. -/
def Obligations.ReadOnlyCmdAndStatusAccesses : Prop :=
  ∀ (s : State) rest d,
    (∀ off, off.toNat % 4 = 0 →
      (off.toNat ∈ [0x014, 0x01C, 0x020] ∨ 0x100 ≤ off.toNat ∧ off.toNat < 0x140) →
      step (s.withPort (writeAt off d :: rest)) = .next (s.withPort rest)) ∧
    step (s.withPort (readAt 0x000 :: rest)) = .next ((s.withPort rest).reply 0x00000000) ∧
    step (s.withPort (writeAt 0x018 d :: rest)) =
      .next { s.withPort rest with ill := if d.toNat % 2 = 1 then false else s.ill }

/-- 20_memory.md R47: a read only returns its value; a write has exactly the effect of its register; every access but a
CMD write is idempotent. -/
def Obligations.AccessesHaveExactlyTheirEffect : Prop :=
  ∀ (s : State) rest d,
    (∀ off, off.toNat % 4 = 0 →
      step (s.withPort (readAt off :: rest)) = .next ((s.withPort rest).reply (s.readWindow off)) ∧
      (off.toNat ∉ [0x000, 0x004, 0x008, 0x00C, 0x010, 0x018] →
        step (s.withPort (writeAt off d :: rest)) = .next (s.withPort rest)) ∧
      (off ≠ 0x000 →
        runSteps 2 (s.withPort (writeAt off d :: writeAt off d :: rest)) =
          runSteps 1 (s.withPort (writeAt off d :: rest)))) ∧
    step (s.withPort (writeAt 0x004 d :: rest)) = .next { s.withPort rest with opa := d } ∧
    step (s.withPort (writeAt 0x008 d :: rest)) = .next { s.withPort rest with opb := d } ∧
    step (s.withPort (writeAt 0x00C d :: rest)) = .next { s.withPort rest with opc := d } ∧
    step (s.withPort (writeAt 0x010 d :: rest)) = .next { s.withPort rest with opd := d } ∧
    step (s.withPort (writeAt 0x018 d :: rest)) =
      .next { s.withPort rest with ill := if d.toNat % 2 = 1 then false else s.ill } ∧
    step (s.withPort (writeAt 0x000 d :: rest)) = (s.withPort rest).runCommand d

/-- 20_memory.md R43: an access that is not 32 bits wide at a multiple of 4 is refused, and only such an access is. -/
def Obligations.AccessesOutsideTheContractAreRefused : Prop :=
  ∀ (s : State) rest a, (a.bytes ≠ 4 ∨ a.offset.toNat % 4 ≠ 0) ↔
    step (s.withPort (.access a :: rest)) = .refused .accessOutsideContract

/-- 70_reset_and_hazards.md R181: an access that overlaps reset is refused. -/
def Obligations.AccessesOverlappingResetAreRefused : Prop :=
  ∀ (s : State) rest a, step (s.withPort (.accessDuringReset a :: rest)) = .refused .accessOverlapsReset

/-- 20_memory.md R40: the window is the 4096 bytes at `LCU_BASE`, a multiple of 4096; a transaction there reaches the port
with its offset, and one that starts elsewhere does not reach the LCU,
also where its bytes run into the window (the model's choice, log entry 7). -/
def Obligations.WindowSelectsItsOwnAddresses : Prop :=
  ∀ p : Platform, p.base % 4096 = 0 ∧
    (∀ off : Offset, ∀ bytes kind, selectAccess p ⟨p.base + off.toNat, bytes, kind⟩ = some ⟨off, bytes, kind⟩) ∧
    (∀ t : BusTransaction, (t.addr < p.base ∨ p.base + 0xFFF < t.addr) → selectAccess p t = none) ∧
    (∀ (s : State) op, s.issue p (HostOp.transaction p op) = s.withPort (s.port ++ [op.event]))

/-- 10_state.md R33, R34: ID and CFG are constants, field by field, and writes to them are ignored. -/
def Obligations.IdAndCfgAreConstant : Prop :=
  ∀ (s : State) rest d, s.readWindow 0x01C = 0x4C435501 ∧
    bitsOf (s.readWindow 0x01C).toNat 24 8 = 'L'.toNat ∧ bitsOf (s.readWindow 0x01C).toNat 16 8 = 'C'.toNat ∧
    bitsOf (s.readWindow 0x01C).toNat 8 8 = 'U'.toNat ∧ bitsOf (s.readWindow 0x01C).toNat 0 8 = 1 ∧
    s.readWindow 0x020 = 0x00000004 ∧
    bitsOf (s.readWindow 0x020).toNat 0 4 = 4 ∧ bitsOf (s.readWindow 0x020).toNat 4 28 = 0 ∧
    step (s.withPort (writeAt 0x01C d :: rest)) = .next (s.withPort rest) ∧
    step (s.withPort (writeAt 0x020 d :: rest)) = .next (s.withPort rest)

/-- 10_state.md R32: which bits a read of STATUS returns. -/
def Obligations.StatusBitsRead : Prop :=
  ∀ (s : State) j, (s.readWindow 0x018).getLsbD j = if j = 0 then s.ill else if j = 1 then s.ram else false

/-! ### Order and completion (20_memory.md R51, R53; 70_reset_and_hazards.md R186) -/

/-- A read right after a CMD write sees all of that command's effects (70_reset_and_hazards.md section 3). That every
admitted event completes in the one step that takes it, with the rest still waiting, is the model's choice (log entries
1 and 9; 14 for reset). -/
def Obligations.ReadAfterCommandSeesItsEffects : Prop :=
  (∀ (s : State) e rest, e.admitted = true → ∃ t, step (s.withPort (e :: rest)) = .next t ∧ t.port = rest) ∧
  (∀ (s : State) w i off rest, decode w = .ok i → off.toNat % 4 = 0 →
    ∃ u, exec i (s.withPort rest) = .next u ∧
      runSteps 2 (s.withPort (commandWrite w :: readAt off :: rest)) = .next (u.reply (u.readWindow off)))

/-- Every interleaving of two masters' admitted events runs to completion and returns one datum for each read
(20_memory.md section 4). The model's choices it rests on: the orders stand in the port's list (log entries 1 and 8),
the data in `replies` (log entry 2), each event completes in one step, which gives the step count (log entry 9), and a
reset input among the events keeps those behind it and the data already returned (log entry 14). -/
def Obligations.EveryInterleavingRunsToCompletion : Prop :=
  ∀ a b c (s : State), Interleaving a b c → (∀ e ∈ a, e.admitted = true) → (∀ e ∈ b, e.admitted = true) →
    ∃ t, runSteps (a.length + b.length) (s.withPort c) = .next t ∧ t.port = [] ∧
      t.replies.length = s.replies.length + a.countP PortEvent.isRead + b.countP PortEvent.isRead

/-! ### Decoding and encoding (30_encoding.md) -/

/-- 30_encoding.md R65: the write of a legal word runs the decoded command on the state as it is at the write; the same
through the host's own way of placing a word. -/
def Obligations.StepRunsTheDecodedCommand : Prop :=
  ∀ (s : State) rest w i, decode w = .ok i →
    step (s.withPort (commandWrite w :: rest)) = exec i (s.withPort rest) ∧
    step (s.withFetchWord 32 w.toNat) = exec i s

/-- 30_encoding.md R72: words written out from the spec decode to the commands they stand for. -/
def Obligations.SpecWordsDecode : Prop :=
  decode 0x10000200 = .ok (.clr .c2) ∧
  decode 0x11010100 = .ok (.ld32 .c1 true) ∧
  decode 0x12000100 = .ok (.ld565 .c1) ∧
  decode 0x13000300 = .ok (.ld5a3 .c3) ∧
  decode 0x14030000 = .ok (.ldch .c0 true true) ∧
  decode 0x15030300 = .ok (.setch .c3 .a) ∧
  decode 0x160D0000 = .ok (.setfmt .c0 .rgb5a3 true) ∧
  decode 0x17000100 = .ok (.mov .c1 .c0) ∧
  decode 0x22000000 = .ok .cvt5a3to32 ∧
  decode 0x25010000 = .ok (.cvt32to5a3 true) ∧
  decode 0x30000201 = .ok (.add .c2 .c0 .c1) ∧
  decode 0x31000210 = .ok (.sub .c2 .c1 .c0) ∧
  decode 0x32000201 = .ok (.mul .c2 .c0 .c1)

/-- 30_encoding.md R60, R66, R67: the word of every well-formed command decodes to it, with every operand. -/
def Obligations.DecodeOfEncodeIsTheCommand : Prop :=
  ∀ i : Instr, i.WellFormed → decode (encode i) = .ok i

/-- 30_encoding.md R60 to R62, R71: a legal word is the word of the command it decodes to, and that command is
well-formed: no bit of a legal word is dropped. -/
def Obligations.EncodeOfDecodeIsTheWord : Prop :=
  ∀ w i, decode w = .ok i → i.WellFormed ∧ encode i = w

/-- 30_encoding.md R63: the decoder accepts exactly the words the opcode map makes legal, and at most one row fits a
word. -/
def Obligations.DecoderAgreesWithTheOpcodeMap : Prop :=
  (∀ w, (∃ i, decode w = .ok i) ↔ legalWord w = true) ∧
  (∀ w, ∀ x ∈ opcodeMap, ∀ y ∈ opcodeMap, x.fits w = true → y.fits w = true → x = y)

/-- 30_encoding.md R64: the illegal words are exactly those of the list, and writing one to CMD sets ILL and does nothing
else. -/
def Obligations.IllegalWordsAreExactlyTheListed : Prop :=
  ∀ w : Word, (listedIllegal w.toNat ↔ ∃ r, decode w = .error r) ∧
    (listedIllegal w.toNat → ∀ (s : State) rest,
      step (s.withPort (commandWrite w :: rest)) = .next { s.withPort rest with ill := true })

/-! ### The one error (60_exceptions.md) -/

/-- 60_exceptions.md R161: a word the opcode map makes illegal sets STATUS.ILL, and nothing else changes. -/
def Obligations.IllegalCommandSetsIllOnly : Prop :=
  ∀ (s : State) rest w, legalWord w = false →
    step (s.withPort (commandWrite w :: rest)) = .next { s.withPort rest with ill := true }

/-- 60_exceptions.md R160: ILL becomes set only by a CMD write of an illegal word, no legal command raises an error, its
code is STATUS bit 0, and no copy of the word is kept. -/
def Obligations.OnlyIllegalWordsSetIll : Prop :=
  (∀ (s : State) (t : State), step s = .next t → s.ill = false → t.ill = true →
    ∃ w rest, s.port = commandWrite w :: rest ∧ legalWord w = false) ∧
  (∀ i (s : State), ∃ t, exec i s = .next t ∧ t.ill = s.ill) ∧
  (∀ (s : State), (s.readWindow 0x018).getLsbD 0 = s.ill) ∧
  (∀ (s : State) rest v w, legalWord v = false → legalWord w = false →
    step (s.withPort (commandWrite v :: rest)) = step (s.withPort (commandWrite w :: rest)))

/-- 60_exceptions.md R162: ILL stays set until a STATUS write with bit 0 set or reset, a legal command runs the same
whatever ILL is, and several illegal commands leave what one leaves. -/
def Obligations.IllIsStickyAndStopsNothing : Prop :=
  (∀ (s : State) (t : State), step s = .next t → s.ill = true → t.ill = false →
    ∃ rest, s.port = .reset :: rest ∨ ∃ d : Word, s.port = writeAt 0x018 d :: rest ∧ d.toNat % 2 = 1) ∧
  (∀ i (s : State) b, ∃ t, exec i s = .next t ∧ exec i { s with ill := b } = .next { t with ill := b }) ∧
  (∀ (s : State) rest v w, legalWord v = false → legalWord w = false →
    runSteps 2 (s.withPort (commandWrite v :: commandWrite w :: rest)) =
      runSteps 1 (s.withPort (commandWrite w :: rest)))

/-- 60_exceptions.md R166: of a STATUS write that clears ILL and an illegal CMD write, the later decides ILL. -/
def Obligations.LaterOfClearAndErrorDecidesIll : Prop :=
  ∀ (s : State) rest w, ∀ d : Word, legalWord w = false → d.toNat % 2 = 1 →
    runSteps 2 (s.withPort (writeAt 0x018 d :: commandWrite w :: rest)) =
      .next { s.withPort rest with ill := true } ∧
    runSteps 2 (s.withPort (commandWrite w :: writeAt 0x018 d :: rest)) =
      .next { s.withPort rest with ill := false }

/-! ### Who may change what (10_state.md) -/

/-- 10_state.md R30: an operand register changes only by the host's own write of the new value to it, or by reset; no
command writes one. -/
def Obligations.OperandRegistersChangeOnlyByTheHost : Prop :=
  (∀ (s : State) (t : State), step s = .next t →
    (t.opa ≠ s.opa → ∃ rest, s.port = .reset :: rest ∨ s.port = writeAt 0x004 t.opa :: rest) ∧
    (t.opb ≠ s.opb → ∃ rest, s.port = .reset :: rest ∨ s.port = writeAt 0x008 t.opb :: rest) ∧
    (t.opc ≠ s.opc → ∃ rest, s.port = .reset :: rest ∨ s.port = writeAt 0x00C t.opc :: rest) ∧
    (t.opd ≠ s.opd → ∃ rest, s.port = .reset :: rest ∨ s.port = writeAt 0x010 t.opd :: rest)) ∧
  (∀ i (s : State), ∃ t, exec i s = .next t ∧ t.opa = s.opa ∧ t.opb = s.opb ∧ t.opc = s.opc ∧ t.opd = s.opd)

/-- 10_state.md R31: RESULT and STATUS.RAM change only by one of the six conversions, or by reset. -/
def Obligations.ResultChangesOnlyByConversions : Prop :=
  ∀ (s : State) (t : State), step s = .next t → (t.result ≠ s.result ∨ t.ram ≠ s.ram) →
    ∃ rest, s.port = .reset :: rest ∨
      ∃ w i, s.port = commandWrite w :: rest ∧ decode w = .ok i ∧ isConversion i = true

/-- 10_state.md R20: a color register changes only by a command that names it as its destination, or by reset. -/
def Obligations.ColorRegistersChangeOnlyByCommands : Prop :=
  ∀ (s : State) (t : State) n, step s = .next t → t.getCr n ≠ s.getCr n →
    ∃ rest, s.port = .reset :: rest ∨
      ∃ w i, s.port = commandWrite w :: rest ∧ decode w = .ok i ∧ destOf i = some n

/-- 10_state.md R29: every step keeps P5A3 the word of its channels in the mode that AM had at the last resync; the mode
is carried along by `modeAfter`. -/
def Obligations.EveryStepKeepsP5A3InItsResyncMode : Prop :=
  ∀ (s : State) (t : State) m, PackedInMode m s → step s = .next t → PackedInMode (modeAfter s t m) t

/-- 10_state.md R29: P5A3 stays current in every step but a SETFMT that changes AM. -/
def Obligations.P5A3StaysCurrentUnlessSetfmtChangesAm : Prop :=
  ∀ (s : State) (t : State) n, P5A3Current s n → step s = .next t → ¬ P5A3Current t n →
    ∃ w rest fmt am, s.port = commandWrite w :: rest ∧ decode w = .ok (.setfmt n fmt am) ∧
      (t.getCr n).am ≠ (s.getCr n).am

/-- 10_state.md R29, R39: at reset P5A3 of every register is current, in the no-alpha mode. -/
def Obligations.P5A3IsCurrentAtReset : Prop :=
  PackedInMode (fun _ => false) State.reset ∧ ∀ n, P5A3Current State.reset n

/-! ### The codec (40_codec.md) -/

/-- 40_codec.md R80 to R83: the four expansions, as numbers, with the table of `expand3`. -/
def Obligations.ExpansionFormulas : Prop :=
  (∀ v : BitVec 3, (expand3 v).toNat = wide3 v.toNat) ∧ (∀ v : BitVec 4, (expand4 v).toNat = wide4 v.toNat) ∧
  (∀ v : BitVec 5, (expand5 v).toNat = wide5 v.toNat) ∧ (∀ v : BitVec 6, (expand6 v).toNat = wide6 v.toNat) ∧
  [0, 1, 2, 3, 4, 5, 6, 7].map (fun v => expand3 (BitVec.ofNat 3 v)) =
    [0x00, 0x21, 0x4A, 0x6B, 0x94, 0xB5, 0xDE, 0xFF]

/-- 40_codec.md R84: the RGBA32 layout, and packing and unpacking undo each other. -/
def Obligations.Rgba32PacksLosslessly : Prop :=
  (∀ ch, (rgba32 ch).toNat = ch.n8888 ∧ unpack32 (rgba32 ch) = ch) ∧ (∀ w, rgba32 (unpack32 w) = w)

/-- 40_codec.md R85, R86: RGB565 packing keeps the top bits, unpacking expands each field and makes alpha opaque. -/
def Obligations.Rgb565PackAndDecode : Prop :=
  (∀ r g b, (pack565 r g b).toNat = word565 r.toNat g.toNat b.toNat) ∧ (∀ w, (decode565 w).are565 w.toNat)

/-- 40_codec.md R87, R88: RGB5A3 packing in both modes, and unpacking by bit 15. -/
def Obligations.Rgb5A3PackAndDecode : Prop :=
  (∀ ch am, (pack5A3 ch am).toNat = ch.n5A3 am) ∧
  (∀ w, (decode5A3 w).1.are5A3 w.toNat ∧ ((decode5A3 w).2 = true ↔ w.toNat < 2 ^ 15))

/-- 40_codec.md R89: every RGB565 word survives decode and pack. -/
def Obligations.Rgb565RoundTrip : Prop :=
  ∀ w, pack565 (decode565 w).r (decode565 w).g (decode565 w).b = w

/-- 40_codec.md R90: every RGB5A3 word survives decode and pack, in both modes. -/
def Obligations.Rgb5A3RoundTrip : Prop :=
  ∀ w, pack5A3 (decode5A3 w).1 (decode5A3 w).2 = w

/-- 40_codec.md R91: clamping and the range check, for every integer; clamping twice is clamping once. -/
def Obligations.ClampLaws : Prop :=
  ∀ x : Int, ((clamp8 x).toNat : Int) = clamped x ∧ (inrange8 x = true ↔ fits8 x) ∧
    clamp8 ((clamp8 x).toNat : Int) = clamp8 x ∧ fits8 (clamped x)

/-! ### The color-register commands (41_color_load.md) -/

/-- 41_color_load.md R110: the default value. -/
def Obligations.ClrGivesTheDefaultValue : Prop :=
  ∀ cd (s : State), (encode (.clr cd)).toNat = 0x10000000 + 2 ^ 8 * cd.code.toNat ∧
    exec (.clr cd) s = .next (s.setCr cd ⟨⟨0, 0, 0, 0⟩, 0x8000, false, .rgb888, true⟩)

/-- 41_color_load.md R111: the four bytes of OPA become the channels, and P32 then reads OPA. -/
def Obligations.Ld32Loads : Prop :=
  ∀ cd am (s : State), (encode (.ld32 cd am)).toNat = 0x11000000 + 2 ^ 16 * am.toNat + 2 ^ 8 * cd.code.toNat ∧
    ∃ ch p, exec (.ld32 cd am) s =
      .next (s.setCr cd ⟨ch, p, am, if am then .rgba8888 else .rgb888, true⟩) ∧
    ch.r.toNat = bitsOf s.opa.toNat 24 8 ∧ ch.g.toNat = bitsOf s.opa.toNat 16 8 ∧
    ch.b.toNat = bitsOf s.opa.toNat 8 8 ∧ ch.a.toNat = bitsOf s.opa.toNat 0 8 ∧
    p.toNat = ch.n5A3 am ∧ ch.n8888 = s.opa.toNat

/-- 41_color_load.md R112: the channels of `OPA[15:0]`, alpha opaque; P565 then reads `OPA[15:0]`. -/
def Obligations.Ld565Loads : Prop :=
  ∀ cd (s : State), (encode (.ld565 cd)).toNat = 0x12000000 + 2 ^ 8 * cd.code.toNat ∧
    ∃ ch p, exec (.ld565 cd) s = .next (s.setCr cd ⟨ch, p, false, .rgb565, true⟩) ∧
    ch.are565 (s.opa.toNat % 2 ^ 16) ∧ p.toNat = ch.n5A3 false ∧ ch.n565 = s.opa.toNat % 2 ^ 16

/-- 41_color_load.md R113: the channels of `OPA[15:0]` in its mode; AM is NOT bit 15 and P5A3 is `OPA[15:0]`. -/
def Obligations.Ld5a3Loads : Prop :=
  ∀ cd (s : State), (encode (.ld5a3 cd)).toNat = 0x13000000 + 2 ^ 8 * cd.code.toNat ∧
    ∃ ch p am, exec (.ld5a3 cd) s = .next (s.setCr cd ⟨ch, p, am, .rgb5a3, true⟩) ∧
    ch.are5A3 (s.opa.toNat % 2 ^ 16) ∧ (am = true ↔ bitsOf s.opa.toNat 15 1 = 0) ∧
    p.toNat = s.opa.toNat % 2 ^ 16 ∧ p.toNat = ch.n5A3 am

/-- 41_color_load.md R114: signed operands, clamped; VALID is the range check; OPD only with `hasa`. -/
def Obligations.LdchLoads : Prop :=
  ∀ cd am hasa (s : State),
    (encode (.ldch cd am hasa)).toNat =
      0x14000000 + 2 ^ 17 * hasa.toNat + 2 ^ 16 * am.toNat + 2 ^ 8 * cd.code.toNat ∧
    ∃ ch p v, exec (.ldch cd am hasa) s =
      .next (s.setCr cd ⟨ch, p, am, if am then .rgba8888 else .rgb888, v⟩) ∧
    (ch.r.toNat : Int) = clamped s.opa.toInt ∧ (ch.g.toNat : Int) = clamped s.opb.toInt ∧
    (ch.b.toNat : Int) = clamped s.opc.toInt ∧
    (ch.a.toNat : Int) = (if hasa then clamped s.opd.toInt else 255) ∧ p.toNat = ch.n5A3 am ∧
    (v = true ↔ fits8 s.opa.toInt ∧ fits8 s.opb.toInt ∧ fits8 s.opc.toInt ∧ (hasa = true → fits8 s.opd.toInt))

/-- 41_color_load.md R115: one channel set, the others, AM and FMT kept, P5A3 regenerated, VALID the range check. -/
def Obligations.SetchSetsOneChannel : Prop :=
  ∀ cd k (s : State), (encode (.setch cd k)).toNat = 0x15000000 + 2 ^ 16 * k.code.toNat + 2 ^ 8 * cd.code.toNat ∧
    ∃ ch p v, exec (.setch cd k) s =
      .next (s.setCr cd ⟨ch, p, (s.getCr cd).am, (s.getCr cd).fmt, v⟩) ∧
    ((ch.get k).toNat : Int) = clamped s.opa.toInt ∧ (∀ j, j ≠ k → ch.get j = (s.getCr cd).ch.get j) ∧
    p.toNat = ch.n5A3 (s.getCr cd).am ∧ (v = true ↔ fits8 s.opa.toInt)

/-- 41_color_load.md R116: FMT and AM by the table; channels, P5A3 and VALID kept. -/
def Obligations.SetfmtWritesTagAndAm : Prop :=
  ∀ cd fmt am (s : State),
    (encode (.setfmt cd fmt am)).toNat =
      0x16000000 + 2 ^ 19 * am.toNat + 2 ^ 16 * fmt.code.toNat + 2 ^ 8 * cd.code.toNat ∧
    exec (.setfmt cd fmt am) s =
    .next (s.setCr cd ⟨(s.getCr cd).ch, (s.getCr cd).p5a3,
      if fmt = .rgba8888 ∨ fmt = .rgbaf then true else if fmt = .rgb5a3 then am else false,
      fmt, (s.getCr cd).valid⟩)

/-- 41_color_load.md R117: channels, AM, FMT and VALID copied, P5A3 regenerated from the copied channels and AM. -/
def Obligations.MovCopiesAndResyncs : Prop :=
  ∀ cd ca (s : State), (encode (.mov cd ca)).toNat = 0x17000000 + 2 ^ 8 * cd.code.toNat + 2 ^ 4 * ca.code.toNat ∧
    ∃ p, exec (.mov cd ca) s =
      .next (s.setCr cd ⟨(s.getCr ca).ch, p, (s.getCr ca).am, (s.getCr ca).fmt, (s.getCr ca).valid⟩) ∧
    p.toNat = (s.getCr ca).ch.n5A3 (s.getCr ca).am

/-- 70_reset_and_hazards.md R184: SETFMT leaves P5A3 as it was; a MOV onto the register itself or a SETCH then makes it
current, and the MOV keeps VALID. -/
def Obligations.ResyncEndsTheStaleP5A3 : Prop :=
  ∀ cd fmt am k (s : State), ∃ t u v, exec (.setfmt cd fmt am) s = .next t ∧ (t.getCr cd).p5a3 = (s.getCr cd).p5a3 ∧
    exec (.mov cd cd) t = .next u ∧ P5A3Current u cd ∧ (u.getCr cd).valid = (t.getCr cd).valid ∧
    exec (.setch cd k) t = .next v ∧ P5A3Current v cd ∧
    ((v.getCr cd).valid = true ↔ fits8 s.opa.toInt)

/-! ### The stateless conversions (40_codec.md section 4) -/

/-- 40_codec.md R93, R94: RGB565 to RGBA32 and to `0x00RRGGBB`. -/
def Obligations.Cvt565Converts : Prop :=
  ∀ (s : State), encode .cvt565to32 = 0x20000000 ∧ encode .cvt565to24 = 0x21000000 ∧
    ∃ x y ch, exec .cvt565to32 s = .next { s with result := x, ram := false } ∧
    exec .cvt565to24 s = .next { s with result := y, ram := false } ∧
    Channels.are565 ch (s.opa.toNat % 2 ^ 16) ∧ x.toNat = ch.n8888 ∧
    y.toNat = word888 ch.r.toNat ch.g.toNat ch.b.toNat

/-- 40_codec.md R95, R96: RGB5A3 to RGBA32 and to `0x00RRGGBB`; RAM is NOT bit 15. -/
def Obligations.Cvt5a3Converts : Prop :=
  ∀ (s : State), encode .cvt5a3to32 = 0x22000000 ∧ encode .cvt5a3to24 = 0x23000000 ∧
    ∃ x y am ch, exec .cvt5a3to32 s = .next { s with result := x, ram := am } ∧
    exec .cvt5a3to24 s = .next { s with result := y, ram := am } ∧
    Channels.are5A3 ch (s.opa.toNat % 2 ^ 16) ∧ (am = true ↔ bitsOf s.opa.toNat 15 1 = 0) ∧ x.toNat = ch.n8888 ∧
    y.toNat = word888 ch.r.toNat ch.g.toNat ch.b.toNat

/-- 40_codec.md R97, R98: RGBA32 to RGB565 and to RGB5A3. -/
def Obligations.Cvt32Converts : Prop :=
  ∀ am (s : State), encode .cvt32to565 = 0x24000000 ∧
    (encode (.cvt32to5a3 am)).toNat = 0x25000000 + 2 ^ 16 * am.toNat ∧
    ∃ x y, exec .cvt32to565 s = .next { s with result := x, ram := false } ∧
    x.toNat = word565 (bitsOf s.opa.toNat 24 8) (bitsOf s.opa.toNat 16 8) (bitsOf s.opa.toNat 8 8) ∧
    exec (.cvt32to5a3 am) s = .next { s with result := y, ram := am } ∧
    y.toNat = word5A3 (bitsOf s.opa.toNat 24 8) (bitsOf s.opa.toNat 16 8) (bitsOf s.opa.toNat 8 8)
      (bitsOf s.opa.toNat 0 8) am

/-! ### The blender (42_blend.md) -/

/-- 42_blend.md R141: saturating add on all four lanes, from the registers as they were; AM and FMT of `CA`. -/
def Obligations.AddSaturates : Prop :=
  ∀ cd ca cb (s : State),
    (encode (.add cd ca cb)).toNat = 0x30000000 + 2 ^ 8 * cd.code.toNat + 2 ^ 4 * ca.code.toNat + cb.code.toNat ∧
    ∃ ch p v, exec (.add cd ca cb) s =
      .next (s.setCr cd ⟨ch, p, (s.getCr ca).am, (s.getCr ca).fmt, v⟩) ∧
    (∀ k, (ch.get k).toNat = min 255 (((s.getCr ca).ch.get k).toNat + ((s.getCr cb).ch.get k).toNat)) ∧
    p.toNat = ch.n5A3 (s.getCr ca).am ∧
    (v = true ↔ ∀ k, ((s.getCr ca).ch.get k).toNat + ((s.getCr cb).ch.get k).toNat ≤ 255)

/-- 42_blend.md R142: saturating subtract, `CA` minus `CB`. -/
def Obligations.SubSaturates : Prop :=
  ∀ cd ca cb (s : State),
    (encode (.sub cd ca cb)).toNat = 0x31000000 + 2 ^ 8 * cd.code.toNat + 2 ^ 4 * ca.code.toNat + cb.code.toNat ∧
    ∃ ch p v, exec (.sub cd ca cb) s =
      .next (s.setCr cd ⟨ch, p, (s.getCr ca).am, (s.getCr ca).fmt, v⟩) ∧
    (∀ k, (ch.get k).toNat = ((s.getCr ca).ch.get k).toNat - ((s.getCr cb).ch.get k).toNat) ∧
    p.toNat = ch.n5A3 (s.getCr ca).am ∧
    (v = true ↔ ∀ k, ((s.getCr cb).ch.get k).toNat ≤ ((s.getCr ca).ch.get k).toNat)

/-- 42_blend.md R143: saturating multiply, with no division by 255. -/
def Obligations.MulSaturates : Prop :=
  ∀ cd ca cb (s : State),
    (encode (.mul cd ca cb)).toNat = 0x32000000 + 2 ^ 8 * cd.code.toNat + 2 ^ 4 * ca.code.toNat + cb.code.toNat ∧
    ∃ ch p v, exec (.mul cd ca cb) s =
      .next (s.setCr cd ⟨ch, p, (s.getCr ca).am, (s.getCr ca).fmt, v⟩) ∧
    (∀ k, (ch.get k).toNat = min 255 (((s.getCr ca).ch.get k).toNat * ((s.getCr cb).ch.get k).toNat)) ∧
    p.toNat = ch.n5A3 (s.getCr ca).am ∧
    (v = true ↔ ∀ k, ((s.getCr ca).ch.get k).toNat * ((s.getCr cb).ch.get k).toNat ≤ 255)

/-- 42_blend.md R144: ADD and MUL are commutative in their channels and in VALID. -/
def Obligations.AddAndMulCommuteInChannelsAndValid : Prop :=
  ∀ cd ca cb (s : State), ∃ t t' u u', exec (.add cd ca cb) s = .next t ∧ exec (.add cd cb ca) s = .next t' ∧
    (t.getCr cd).ch = (t'.getCr cd).ch ∧ (t.getCr cd).valid = (t'.getCr cd).valid ∧
    exec (.mul cd ca cb) s = .next u ∧ exec (.mul cd cb ca) s = .next u' ∧
    (u.getCr cd).ch = (u'.getCr cd).ch ∧ (u.getCr cd).valid = (u'.getCr cd).valid

/-! ### Frames -/

/-- The frame of CLR, LD32, LD565, LD5A3, LDCH, SETCH, SETFMT, MOV, ADD, SUB and MUL: only the destination color register
changes, and every offset outside its window reads as before (41_color_load.md introduction; 42_blend.md R140). -/
def Obligations.LoadsAndBlendsChangeOnlyTheirDestination : Prop :=
  ∀ i cd (s : State) (t : State), destOf i = some cd → exec i s = .next t →
    (∀ n, n ≠ cd → t.getCr n = s.getCr n) ∧ SameButColors s t ∧
    (∀ off, ¬ inCrWindow cd off → t.readWindow off = s.readWindow off)

/-- The frame of the six conversions: only RESULT and STATUS.RAM change, and every offset but those two registers' reads
as before (40_codec.md section 4). -/
def Obligations.ConversionsChangeOnlyResultAndRam : Prop :=
  ∀ i (s : State) (t : State), isConversion i = true → exec i s = .next t →
    (∀ n, t.getCr n = s.getCr n) ∧ t.opa = s.opa ∧ t.opb = s.opb ∧ t.opc = s.opc ∧ t.opd = s.opd ∧
    t.ill = s.ill ∧ t.port = s.port ∧ t.replies = s.replies ∧
    (∀ off, off ≠ 0x014 → off ≠ 0x018 → t.readWindow off = s.readWindow off) ∧
    (∀ j, j ≠ 1 → (t.readWindow 0x018).getLsbD j = (s.readWindow 0x018).getLsbD j)

/-! ### What commands do not read -/

/-- 10_state.md R27: FMT gates nothing: with one register's FMT changed, every command leaves the same state but for
FMT. -/
def Obligations.FmtGatesNothing : Prop :=
  ∀ i (s : State) n f, ∃ t u, exec i s = .next t ∧ exec i (s.setFmt n f) = .next u ∧ SameButColors t u ∧
    ∀ j, (u.getCr j).ch = (t.getCr j).ch ∧ (u.getCr j).p5a3 = (t.getCr j).p5a3 ∧
      (u.getCr j).am = (t.getCr j).am ∧ (u.getCr j).valid = (t.getCr j).valid

/-- 10_state.md R38 (a): no command reads the stored P5A3: with one register's P5A3 changed, every command leaves the same
state but for that word, and the same destination register wherever it resyncs. -/
def Obligations.NoCommandReadsTheStoredP5A3 : Prop :=
  ∀ i (s : State) n x, ∃ t u, exec i s = .next t ∧ exec i (s.setCr n { s.getCr n with p5a3 := x }) = .next u ∧
    SameButColors t u ∧
    (∀ j, (u.getCr j).ch = (t.getCr j).ch ∧ (u.getCr j).am = (t.getCr j).am ∧
      (u.getCr j).fmt = (t.getCr j).fmt ∧ (u.getCr j).valid = (t.getCr j).valid) ∧
    (∀ j, (j ≠ n ∨ destOf i = some j ∧ isSetfmt i = false) → (u.getCr j).p5a3 = (t.getCr j).p5a3)

/-- 30_encoding.md R68: OPB and OPC are read by LDCH only, OPD by LDCH with `hasa` only, OPA by the commands of its list
only, and the 16-bit ones ignore `OPA[31:16]`. -/
def Obligations.CommandsReadOnlyTheirOperands : Prop :=
  ∀ i (s : State) v, ∃ t, exec i s = .next t ∧
    ((∀ cd am hasa, i ≠ .ldch cd am hasa) →
      exec i { s with opb := v } = .next { t with opb := v } ∧
      exec i { s with opc := v } = .next { t with opc := v }) ∧
    ((∀ cd am, i ≠ .ldch cd am true) → exec i { s with opd := v } = .next { t with opd := v }) ∧
    (opaUse i = .unread ∨ opaUse i = .lowHalf ∧ v.toNat % 2 ^ 16 = s.opa.toNat % 2 ^ 16 →
      exec i { s with opa := v } = .next { t with opa := v })

/-! ### Pseudo-instructions (30_encoding.md R74) -/

/-- 30_encoding.md R74: what each pseudo-instruction's expansion does at the port. -/
def Obligations.PseudoInstructionsRun : Prop :=
  ∀ (s : State) rest cd,
    (∀ imm am, runSteps 2 (s.withPort ((Pseudo.ld32i cd imm am).expand.map HostOp.event ++ rest)) =
      exec (.ld32 cd am) { s.withPort rest with opa := imm }) ∧
    (∀ imm, runSteps 2 (s.withPort ((Pseudo.ld565i cd imm).expand.map HostOp.event ++ rest)) =
      exec (.ld565 cd) { s.withPort rest with opa := imm.setWidth 32 }) ∧
    (∀ imm, runSteps 2 (s.withPort ((Pseudo.ld5a3i cd imm).expand.map HostOp.event ++ rest)) =
      exec (.ld5a3 cd) { s.withPort rest with opa := imm.setWidth 32 }) ∧
    (∀ r g b am, runSteps 4 (s.withPort ((Pseudo.ldchi cd r g b none am).expand.map HostOp.event ++ rest)) =
      exec (.ldch cd am false) { s.withPort rest with opa := r, opb := g, opc := b }) ∧
    (∀ r g b a am, runSteps 5 (s.withPort ((Pseudo.ldchi cd r g b (some a) am).expand.map HostOp.event ++ rest)) =
      exec (.ldch cd am true) { s.withPort rest with opa := r, opb := g, opc := b, opd := a }) ∧
    (∀ k imm, runSteps 2 (s.withPort ((Pseudo.setchi cd k imm).expand.map HostOp.event ++ rest)) =
      exec (.setch cd k) { s.withPort rest with opa := imm }) ∧
    (∀ c imm, ∃ u, exec (Conversion.instr c) { s.withPort rest with opa := imm } = .next u ∧
      runSteps 3 (s.withPort ((Pseudo.cvti c imm).expand.map HostOp.event ++ rest)) = .next (u.reply u.result)) ∧
    (∃ p, runSteps 1 (s.withPort ((Pseudo.resync cd).expand.map HostOp.event ++ rest)) =
      .next ((s.withPort rest).setCr cd { s.getCr cd with p5a3 := p }) ∧
      p.toNat = (s.getCr cd).ch.n5A3 (s.getCr cd).am) ∧
    runSteps 1 (s.withPort (Pseudo.clrerr.expand.map HostOp.event ++ rest)) =
      .next { s.withPort rest with ill := false }
end

