-- ==== Sys2Proof/Tests/Slice0.lean ====
section
/-! SUPPORT. Tests/Slice0.lean: words decoded by hand from 30_encoding.md, single steps with the expected values of
95_test_vectors.md, and a witness for the hypotheses of every statement that has some. -/

namespace Sys2Proof.Tests

open Sys2Proof.Machine

/-! ### Small helpers -/

/-- The reset state with these operand registers. -/
def operands (a b c d : Word) : State := { State.reset with opa := a, opb := b, opc := c, opd := d }

/-- The reset state with OPA. -/
def operand (a : Word) : State := operands a 0 0 0

/-- The state one step leaves when the next event is a write of `w` to CMD. -/
def ran (w : Word) (s : State) : Option State :=
  match step (s.withPort [commandWrite w]) with
  | .next t => some t
  | .fault _ => none
  | .refused _ => none

/-- The four window words of a color register after `w`: P32, P565, P5A3 and META (95_test_vectors.md conventions). -/
def window (n : CReg) (w : Word) (s : State) : Option (List Word) :=
  (ran w s).map fun t => [t.readReg (.crP32 n), t.readReg (.crP565 n), t.readReg (.crP5a3 n), t.readReg (.crMeta n)]

/-- RESULT and STATUS after `w`. -/
def converted (w : Word) (s : State) : Option (List Word) :=
  (ran w s).map fun t => [t.readReg .result, t.readReg .status]

/-- What the port returns to one access. -/
def returned (e : PortEvent) (s : State) : Option (List Word) :=
  match step (s.withPort [e]) with
  | .next t => some t.replies
  | .fault _ => none
  | .refused _ => none

/-- A register as `ldch cD, hasa` leaves it from in-range channels, in the mode `am`, with its P5A3 word. -/
def loaded (r g b a : Byte) (p : Half) (am : Bool) (fmt : Format) : ColorReg := ⟨⟨r, g, b, a⟩, p, am, fmt, true⟩

/-- The reset state with CR0 and CR1. -/
def pair (x y : ColorReg) : State := { State.reset with cr := ⟨x, y, .reset, .reset⟩ }

/-- CR0 after `ld5a3i c0, 0x4ABC` and `setfmt c0, rgb888`: its P5A3 is stale (95_test_vectors.md V-SF-back). -/
def stale : State := pair (loaded 0xAA 0xBB 0xCC 0x94 0x4ABC false .rgb888) .reset

/-- CR0 after `ld32i c0, 0x12345678, am` (95_test_vectors.md V-SF rows). -/
def tagged : State := pair (loaded 0x12 0x34 0x56 0x78 0x3135 true .rgba8888) .reset

/-! ### Well-formedness (30_encoding.md R67) -/

theorem test_wellformed_am_with_rgb5a3 : (Instr.setfmt .c0 .rgb5a3 true).wellFormed = true := by decide
theorem test_illformed_am_with_rgb888 : (Instr.setfmt .c0 .rgb888 true).wellFormed = false := by decide
theorem test_illformed_am_with_rgba8888 : (Instr.setfmt .c0 .rgba8888 true).wellFormed = false := by decide

/-! ### Decoding: words written out from 30_encoding.md R60, R66, R67 and R72 -/

theorem test_decode_clr : decode 0x10000200 = .ok (.clr .c2) := by rfl
theorem test_decode_ld32 : decode 0x11000300 = .ok (.ld32 .c3 false) := by rfl
theorem test_decode_ld32_am : decode 0x11010100 = .ok (.ld32 .c1 true) := by rfl
theorem test_decode_ld565 : decode 0x12000100 = .ok (.ld565 .c1) := by rfl
theorem test_decode_ld5a3 : decode 0x13000200 = .ok (.ld5a3 .c2) := by rfl
theorem test_decode_ldch_am : decode 0x14010000 = .ok (.ldch .c0 true false) := by rfl
theorem test_decode_ldch_hasa : decode 0x14020100 = .ok (.ldch .c1 false true) := by rfl
theorem test_decode_setch_g : decode 0x15010000 = .ok (.setch .c0 .g) := by rfl
theorem test_decode_setch_a : decode 0x15030300 = .ok (.setch .c3 .a) := by rfl
theorem test_decode_setfmt_rgb565 : decode 0x16040200 = .ok (.setfmt .c2 .rgb565 false) := by rfl
theorem test_decode_setfmt_rgb5a3_am : decode 0x160D0000 = .ok (.setfmt .c0 .rgb5a3 true) := by rfl
theorem test_decode_mov : decode 0x17000210 = .ok (.mov .c2 .c1) := by rfl
theorem test_decode_cvt565to32 : decode 0x20000000 = .ok .cvt565to32 := by rfl
theorem test_decode_cvt565to24 : decode 0x21000000 = .ok .cvt565to24 := by rfl
theorem test_decode_cvt5a3to32 : decode 0x22000000 = .ok .cvt5a3to32 := by rfl
theorem test_decode_cvt5a3to24 : decode 0x23000000 = .ok .cvt5a3to24 := by rfl
theorem test_decode_cvt32to565 : decode 0x24000000 = .ok .cvt32to565 := by rfl
theorem test_decode_cvt32to5a3_am : decode 0x25010000 = .ok (.cvt32to5a3 true) := by rfl
theorem test_decode_add : decode 0x30000201 = .ok (.add .c2 .c0 .c1) := by rfl
theorem test_decode_sub : decode 0x31000210 = .ok (.sub .c2 .c1 .c0) := by rfl
theorem test_decode_mul : decode 0x32000333 = .ok (.mul .c3 .c3 .c3) := by rfl

/-- Illegal words, each refused for its own reason (95_test_vectors.md section 2.8). -/
theorem test_decode_zero_word : decode 0x00000000 = .error .unknownOpcode := by rfl
theorem test_decode_no_divide : decode 0x33000201 = .error .unknownOpcode := by rfl
theorem test_decode_bit_20 : decode 0x10100000 = .error .reservedBitSet := by rfl
theorem test_decode_bit_12 : decode 0x10001000 = .error .reservedBitSet := by rfl
theorem test_decode_unused_f : decode 0x11020000 = .error .unusedBitSet := by rfl
theorem test_decode_unused_cd : decode 0x20000100 = .error .unusedBitSet := by rfl
theorem test_decode_unused_cb : decode 0x17000301 = .error .unusedBitSet := by rfl
theorem test_decode_cd_4 : decode 0x10000400 = .error .noSuchRegister := by rfl
theorem test_decode_ca_4 : decode 0x17000340 = .error .noSuchRegister := by rfl
theorem test_decode_format_6 : decode 0x16060000 = .error .noSuchFormat := by rfl
theorem test_decode_am_code_1 : decode 0x16090000 = .error .amWithoutRgb5a3 := by rfl

/-- The host's two questions, on one row. -/
theorem test_table_word : decodeTableWord 32 0x17000210 = some (.mov .c2 .c1) := by decide
theorem test_fetch_word : step (State.reset.withFetchWord 32 0x20000000) =
    .next { State.reset with result := 0x000000FF } := by rfl

/-! ### Family 1 (95_test_vectors.md section 2.6) -/

/-- V-CLR1, on CR2. -/
theorem test_clr : window .c2 0x10000200
    { State.reset with cr := ⟨.reset, .reset, loaded 0x12 0x34 0x56 0x78 0x3135 true .rgba8888, .reset⟩ } =
      some [0x00000000, 0x0000, 0x8000, 0x02] := by decide
/-- V-L32a, V-L32b. -/
theorem test_ld32_am : window .c1 0x11010100 (operand 0x12345678) = some [0x12345678, 0x11AA, 0x3135, 0x13] := by
  decide
theorem test_ld32 : window .c1 0x11000100 (operand 0x12345678) = some [0x12345678, 0x11AA, 0x88CA, 0x02] := by decide
/-- V-565b, V-565c. -/
theorem test_ld565_high_half_ignored :
    window .c0 0x12000000 (operand 0xFFFF0000) = some [0x000000FF, 0x0000, 0x8000, 0x42] := by decide
theorem test_ld565 : window .c1 0x12000100 (operand 0x0000ABCD) = some [0xAD796BFF, 0xABCD, 0xD5ED, 0x42] := by decide
/-- V-5A3a, V-5A3b: both modes. -/
theorem test_ld5a3_no_alpha : window .c0 0x13000000 (operand 0x0000F800) = some [0xF70000FF, 0xF000, 0xF800, 0x52] := by
  decide
theorem test_ld5a3_alpha : window .c0 0x13000000 (operand 0x00004ABC) = some [0xAABBCC94, 0xADD9, 0x4ABC, 0x53] := by
  decide
/-- V-LCa: 300 and -5 clamp. V-LCb: OPD is not read. -/
theorem test_ldch_clamps : window .c0 0x14030000 (operands 300 0xFFFFFFFB 128 64) =
    some [0xFF008040, 0xF810, 0x2F08, 0x11] := by decide
theorem test_ldch_without_hasa : window .c0 0x14000000 (operands 10 20 30 0xFFFFFFFF) =
    some [0x0A141EFF, 0x08A3, 0x8443, 0x02] := by decide
/-- V-SC1: clamped, so VALID = 0. V-SC7: the stale P5A3 ends. -/
theorem test_setch_clamps : window .c0 0x15010000
    { pair (loaded 10 20 30 255 0x8443 false .rgb888) .reset with opa := 511 } =
      some [0x0AFF1EFF, 0x0FE3, 0x87E3, 0x00] := by decide
theorem test_setch_resyncs : window .c0 0x15030000 { stale with opa := 148 } =
    some [0xAABBCC94, 0xADD9, 0xD6F9, 0x02] := by decide
/-- V-SF-rgbaf, V-SF-rgb5a3: P5A3 is left as it was. -/
theorem test_setfmt_rgbaf : window .c0 0x16030000 tagged = some [0x12345678, 0x11AA, 0x3135, 0x33] := by decide
theorem test_setfmt_rgb5a3 : window .c0 0x16050000 tagged = some [0x12345678, 0x11AA, 0x3135, 0x52] := by decide
/-- V-MV1: the copy's P5A3 is regenerated. V-MV2: `resync c0`. -/
theorem test_mov_regenerates : window .c1 0x17000100 stale = some [0xAABBCC94, 0xADD9, 0xD6F9, 0x02] := by decide
theorem test_resync : window .c0 0x17000000 stale = some [0xAABBCC94, 0xADD9, 0xD6F9, 0x02] := by decide

/-! ### Family 2 (95_test_vectors.md section 2.5); STATUS is RAM in bit 1 -/

theorem test_cvt565to32 : converted 0x20000000 (operand 0x00001234) = some [0x1045A5FF, 0] := by decide
theorem test_cvt565to32_high_half : converted 0x20000000 (operand 0xDEADFFFF) = some [0xFFFFFFFF, 0] := by decide
theorem test_cvt565to24 : converted 0x21000000 (operand 0x000007E0) = some [0x0000FF00, 0] := by decide
theorem test_cvt5a3to32_alpha : converted 0x22000000 (operand 0x00004ABC) = some [0xAABBCC94, 2] := by decide
theorem test_cvt5a3to32_no_alpha : converted 0x22000000 (operand 0x12348421) = some [0x080808FF, 0] := by decide
theorem test_cvt5a3to24_alpha : converted 0x23000000 (operand 0x00004ABC) = some [0x00AABBCC, 2] := by decide
theorem test_cvt5a3to24_no_alpha : converted 0x23000000 (operand 0x0000ABCD) = some [0x0052F76B, 0] := by decide
theorem test_cvt32to565 : converted 0x24000000 (operand 0xAABBCCDD) = some [0x0000ADD9, 0] := by decide
theorem test_cvt32to565_truncates : converted 0x24000000 (operand 0x07030700) = some [0x00000000, 0] := by decide
theorem test_cvt32to5a3 : converted 0x25000000 (operand 0xAABBCCDD) = some [0x0000D6F9, 0] := by decide
theorem test_cvt32to5a3_am : converted 0x25010000 (operand 0xAABBCCDD) = some [0x00006ABC, 2] := by decide

/-! ### Family 3 (95_test_vectors.md section 2.7) -/

/-- V-ADD6: the destination is both sources. V-ADD2: AM and FMT of `CA`. -/
theorem test_add_aliased : window .c0 0x30000000 (pair (loaded 100 0 0 200 0x6600 true .rgba8888) .reset) =
    some [0xC80000FF, 0xC800, 0x7C00, 0x11] := by decide
theorem test_add_tag : window .c2 0x30000201
    (pair (loaded 10 20 30 40 0x1011 true .rgba8888) (loaded 1 2 3 4 0x8000 false .rgb888)) =
      some [0x0B16212C, 0x08A4, 0x1012, 0x13] := by decide
/-- V-SUB1, V-SUB5: the operands' order. -/
theorem test_sub : window .c2 0x31000201
    (pair (loaded 200 100 50 255 0xE586 false .rgb888) (loaded 100 100 10 1 0xB181 false .rgb888)) =
      some [0x640028FE, 0x6005, 0xB005, 0x02] := by decide
theorem test_sub_reversed : window .c2 0x31000210
    (pair (loaded 200 100 50 255 0xE586 false .rgb888) (loaded 100 100 10 1 0xB181 false .rgb888)) =
      some [0x00000000, 0x0000, 0x8000, 0x00] := by decide
/-- V-MUL1: saturates and is not normalised. V-MUL4: 255 exactly does not saturate. -/
theorem test_mul_saturates : window .c2 0x32000201
    (pair (loaded 16 255 2 1 0x8BE0 false .rgb888) (loaded 16 255 100 200 0x8BEC false .rgb888)) =
      some [0xFFFFC8C8, 0xFFF9, 0xFFF9, 0x00] := by decide
theorem test_mul_exact : window .c2 0x32000201
    (pair (loaded 15 17 1 0 0x8440 false .rgb888) (loaded 17 15 255 255 0x883F false .rgb888)) =
      some [0xFFFFFF00, 0xFFFF, 0xFFFF, 0x02] := by decide

/-! ### The window (95_test_vectors.md section 2.9) -/

/-- V-W1, V-W2, V-W5, V-W6, V-W10, V-W11. -/
theorem test_read_id : returned (readAt 0x01C) State.reset = some [0x4C435501] := by decide
theorem test_read_cfg : returned (readAt 0x020) State.reset = some [0x00000004] := by decide
theorem test_read_c0_meta : returned (readAt 0x10C) State.reset = some [0x00000002] := by decide
theorem test_read_c3_p5a3 : returned (readAt 0x138) State.reset = some [0x00008000] := by decide
theorem test_read_unmapped_low : returned (readAt 0x024) State.reset = some [0x00000000] := by decide
theorem test_read_unmapped_high : returned (readAt 0x140) State.reset = some [0x00000000] := by decide
/-- V-W13, V-W14. -/
theorem test_status_bit_0_clear : step ({ State.reset with ill := true }.withPort [writeAt 0x018 0xFFFFFFFE]) =
    .next { State.reset with ill := true } := by rfl
theorem test_status_clears_ill_only :
    step ({ State.reset with ill := true, ram := true }.withPort [writeAt 0x018 0x00000001]) =
      .next { State.reset with ram := true } := by rfl
/-- V-W8, V-W9: read-only registers. -/
theorem test_result_read_only : step (State.reset.withPort [writeAt 0x014 0x12345678]) = .next State.reset := by rfl
theorem test_p32_read_only : step (State.reset.withPort [writeAt 0x110 0x12345678]) = .next State.reset := by rfl
/-- V-W16. -/
theorem test_halfword_refused :
    step (State.reset.withPort [.access ⟨0x000, 2, .read⟩]) = .refused .accessOutsideContract := by rfl
theorem test_misaligned_refused :
    step (State.reset.withPort [.access ⟨0x002, 4, .read⟩]) = .refused .accessOutsideContract := by rfl
/-- A zeroed word sets ILL and nothing else (95_test_vectors.md section 2.8). -/
theorem test_illegal_sets_ill : ran 0x00000000 State.reset = some { State.reset with ill := true } := by decide
/-- 30_encoding.md R72, R74: written forms. -/
theorem test_asm_setfmt : asmTokens (.setfmt .c0 .rgb5a3 true) = ["setfmt", "c0", "rgb5a3", "am"] := by decide
theorem test_pseudo_ldchi : (Pseudo.ldchi .c0 300 100 0xFFFFFFEC (some 128) true).expand =
    [.wr .opa 0x0000012C, .wr .opb 0x00000064, .wr .opc 0xFFFFFFEC, .wr .opd 0x00000080, .wr .cmd 0x14030000] := by
  decide

/-! ### Witnesses: for each statement with hypotheses, a state and operands that meet them -/

theorem wit_AccessesAreAcceptedAtOnceAfterReset :
    (readAt 0x01C).admitted = true ∧ legalWord 0x10000000 = true := by decide

/-- Both ends of both unmapped ranges. -/
theorem wit_UnmappedOffsetsReadZeroIgnoreWrites :
    ((0x024 : Offset).toNat % 4 = 0 ∧ 0x020 < (0x024 : Offset).toNat ∧ (0x024 : Offset).toNat < 0x100) ∧
    ((0x0FC : Offset).toNat % 4 = 0 ∧ 0x020 < (0x0FC : Offset).toNat ∧ (0x0FC : Offset).toNat < 0x100) ∧
    ((0x140 : Offset).toNat % 4 = 0 ∧ 0x140 ≤ (0x140 : Offset).toNat) ∧
    ((0xFFC : Offset).toNat % 4 = 0 ∧ 0x140 ≤ (0xFFC : Offset).toNat) := by decide

/-- The three read-only registers and both ends of the color-register windows. -/
theorem wit_ReadOnlyCmdAndStatusAccesses :
    ((0x014 : Offset).toNat % 4 = 0 ∧ (0x014 : Offset).toNat ∈ [0x014, 0x01C, 0x020]) ∧
    ((0x01C : Offset).toNat % 4 = 0 ∧ (0x01C : Offset).toNat ∈ [0x014, 0x01C, 0x020]) ∧
    ((0x020 : Offset).toNat % 4 = 0 ∧ (0x020 : Offset).toNat ∈ [0x014, 0x01C, 0x020]) ∧
    ((0x100 : Offset).toNat % 4 = 0 ∧ 0x100 ≤ (0x100 : Offset).toNat ∧ (0x100 : Offset).toNat < 0x140) ∧
    ((0x13C : Offset).toNat % 4 = 0 ∧ 0x100 ≤ (0x13C : Offset).toNat ∧ (0x13C : Offset).toNat < 0x140) := by decide

/-- A read of CMD; ignored writes at both ends; an idempotent write. -/
theorem wit_AccessesHaveExactlyTheirEffect :
    ((0x000 : Offset).toNat % 4 = 0) ∧
    ((0x014 : Offset).toNat % 4 = 0 ∧ (0x014 : Offset).toNat ∉ [0x000, 0x004, 0x008, 0x00C, 0x010, 0x018]) ∧
    ((0xFFC : Offset).toNat % 4 = 0 ∧ (0xFFC : Offset).toNat ∉ [0x000, 0x004, 0x008, 0x00C, 0x010, 0x018]) ∧
    ((0x004 : Offset).toNat % 4 = 0 ∧ (0x004 : Offset) ≠ 0x000) := by decide

/-- A wrong width, a wrong alignment at the last byte, and an access inside the contract. -/
theorem wit_AccessesOutsideTheContractAreRefused :
    (2 ≠ 4 ∧ step (State.reset.withPort [.access ⟨0x000, 2, .read⟩]) = .refused .accessOutsideContract) ∧
    ((0xFFF : Offset).toNat % 4 ≠ 0 ∧
      step (State.reset.withPort [.access ⟨0xFFF, 4, .write 0⟩]) = .refused .accessOutsideContract) ∧
    step (State.reset.withPort [.access ⟨0xFFC, 4, .write 0⟩]) = .next State.reset := by
  refine ⟨⟨by decide, rfl⟩, ⟨by decide, rfl⟩, rfl⟩

/-- The bytes just below and just above a window. -/
theorem wit_WindowSelectsItsOwnAddresses :
    (⟨0x0FFF, 4, .read⟩ : BusTransaction).addr < (⟨1⟩ : Platform).base ∧
    (⟨1⟩ : Platform).base + 0xFFF < (⟨0x2000, 4, .read⟩ : BusTransaction).addr := by decide

theorem wit_ReadAfterCommandSeesItsEffects :
    (writeAt 0x004 7).admitted = true ∧ PortEvent.reset.admitted = true ∧
    decode 0x20000000 = .ok .cvt565to32 ∧ (0x014 : Offset).toNat % 4 = 0 := ⟨by decide, by decide, rfl, by decide⟩

theorem wit_EveryInterleavingRunsToCompletion :
    Interleaving [writeAt 0x004 1, commandWrite 0x11000000] [readAt 0x100]
      [writeAt 0x004 1, readAt 0x100, commandWrite 0x11000000] ∧
    (∀ e ∈ [writeAt 0x004 1, commandWrite 0x11000000], e.admitted = true) ∧
    (∀ e ∈ [readAt 0x100], e.admitted = true) :=
  ⟨.first _ (.second _ (.first _ .done)), by decide, by decide⟩

theorem wit_StepRunsTheDecodedCommand : decode 0x15030300 = .ok (.setch .c3 .a) := by rfl

/-- A command of each family; SETFMT with and without `am`. -/
theorem wit_DecodeOfEncodeIsTheCommand : ∀ i ∈ [Instr.setfmt .c3 .rgb5a3 true, .setfmt .c0 .rgbaf false,
    .ldch .c1 true true, .cvt32to5a3 true, .mul .c3 .c2 .c1], i.WellFormed := by decide

theorem wit_EncodeOfDecodeIsTheWord : decode 0x160D0000 = .ok (.setfmt .c0 .rgb5a3 true) := by rfl

theorem wit_DecoderAgreesWithTheOpcodeMap :
    legalWord 0x14030300 = true ∧
    ∃ x ∈ opcodeMap, ∃ y ∈ opcodeMap, x.fits 0x14030300 = true ∧ y.fits 0x14030300 = true :=
  ⟨by decide, ⟨0x14000000, 0xFFFCFCFF⟩, by decide, ⟨0x14000000, 0xFFFCFCFF⟩, by decide, by decide, by decide⟩

/-- One word for each clause of the list, at its boundary. -/
theorem wit_IllegalWordsAreExactlyTheListed :
    listedIllegal 0x00000000 ∧ listedIllegal 0x18000000 ∧ listedIllegal 0x26000000 ∧ listedIllegal 0x33000000 ∧
    listedIllegal 0x10100000 ∧ listedIllegal 0x10001000 ∧ listedIllegal 0x10010000 ∧ listedIllegal 0x11020000 ∧
    listedIllegal 0x25020000 ∧ listedIllegal 0x14040000 ∧ listedIllegal 0x15040000 ∧ listedIllegal 0x20000100 ∧
    listedIllegal 0x10000010 ∧ listedIllegal 0x10000001 ∧ listedIllegal 0x10000400 ∧ listedIllegal 0x17000340 ∧
    listedIllegal 0x30000334 ∧ listedIllegal 0x16060000 ∧ listedIllegal 0x16080000 ∧
    ¬ listedIllegal 0x30000333 ∧ ¬ listedIllegal 0x160D0000 ∧ ¬ listedIllegal 0x14030300 := by
  refine ⟨?_, ?_, ?_, ?_, ?_, ?_, ?_, ?_, ?_, ?_, ?_, ?_, ?_, ?_, ?_, ?_, ?_, ?_, ?_, ?_, ?_, ?_⟩ <;>
    (unfold listedIllegal; decide)

theorem wit_IllegalCommandSetsIllOnly : legalWord 0x00000000 = false ∧ legalWord 0x10100000 = false ∧
    legalWord 0x16070000 = false ∧ legalWord 0x30000334 = false := by decide

theorem wit_OnlyIllegalWordsSetIll :
    (∃ t, step (State.reset.withPort [commandWrite 0]) = .next t ∧ State.reset.ill = false ∧ t.ill = true) ∧
    legalWord 0x00000000 = false ∧ legalWord 0x33000201 = false := ⟨⟨_, rfl, rfl, rfl⟩, by decide, by decide⟩

/-- By a STATUS write, and by reset. -/
theorem wit_IllIsStickyAndStopsNothing :
    (∃ t, step ({ State.reset with ill := true }.withPort [writeAt 0x018 1]) = .next t ∧ t.ill = false) ∧
    (∃ t, step ({ State.reset with ill := true }.withPort [.reset]) = .next t ∧ t.ill = false) :=
  ⟨⟨_, rfl, rfl⟩, ⟨_, rfl, rfl⟩⟩

theorem wit_LaterOfClearAndErrorDecidesIll :
    legalWord 0x40000000 = false ∧ (0xFFFFFFFF : Word).toNat % 2 = 1 ∧ (0x00000001 : Word).toNat % 2 = 1 := by decide

/-- Each operand register by its own write, and by reset. -/
theorem wit_OperandRegistersChangeOnlyByTheHost :
    (∃ t, step (State.reset.withPort [writeAt 0x004 5]) = .next t ∧ t.opa ≠ State.reset.opa) ∧
    (∃ t, step (State.reset.withPort [writeAt 0x008 5]) = .next t ∧ t.opb ≠ State.reset.opb) ∧
    (∃ t, step (State.reset.withPort [writeAt 0x00C 5]) = .next t ∧ t.opc ≠ State.reset.opc) ∧
    (∃ t, step (State.reset.withPort [writeAt 0x010 5]) = .next t ∧ t.opd ≠ State.reset.opd) ∧
    (∃ t, step ((operands 1 2 3 4).withPort [.reset]) = .next t ∧ t.opa ≠ 1 ∧ t.opb ≠ 2 ∧ t.opc ≠ 3 ∧ t.opd ≠ 4) :=
  ⟨⟨_, rfl, by decide⟩, ⟨_, rfl, by decide⟩, ⟨_, rfl, by decide⟩, ⟨_, rfl, by decide⟩, ⟨_, rfl, by decide⟩⟩

/-- RESULT and RAM by a conversion, and by reset. -/
theorem wit_ResultChangesOnlyByConversions :
    (∃ t, step ((operand 0x00007000).withPort [commandWrite 0x22000000]) = .next t ∧ t.result ≠ 0 ∧ t.ram ≠ false) ∧
    (∃ t, step ({ State.reset with result := 7, ram := true }.withPort [.reset]) = .next t ∧
      t.result ≠ 7 ∧ t.ram ≠ true) := ⟨⟨_, rfl, by decide⟩, ⟨_, rfl, by decide⟩⟩

/-- A color register by a command, and by reset. -/
theorem wit_ColorRegistersChangeOnlyByCommands :
    (∃ t, step ((operand 0x12345678).withPort [commandWrite 0x11000300]) = .next t ∧
      t.getCr .c3 ≠ (operand 0x12345678).getCr .c3) ∧
    (∃ t, step (stale.withPort [.reset]) = .next t ∧ t.getCr .c0 ≠ stale.getCr .c0) :=
  ⟨⟨_, rfl, by decide⟩, ⟨_, rfl, by decide⟩⟩

/-- A state no run from reset passes unchanged: CR0 is packed in the alpha mode while AM is 0, and a SETFMT runs. -/
theorem wit_EveryStepKeepsP5A3InItsResyncMode :
    PackedInMode (fun i => decide (i = .c0)) (stale.withPort [commandWrite 0x160D0000]) ∧
    ∃ t, step (stale.withPort [commandWrite 0x160D0000]) = .next t :=
  ⟨fun i => by cases i <;> decide, _, rfl⟩

/-- A SETFMT that changes AM, as in 95_test_vectors.md V-SF-rgb888. -/
theorem wit_P5A3StaysCurrentUnlessSetfmtChangesAm :
    P5A3Current (tagged.withPort [commandWrite 0x16000000]) .c0 ∧
    ∃ t, step (tagged.withPort [commandWrite 0x16000000]) = .next t ∧ ¬ P5A3Current t .c0 := by
  unfold P5A3Current
  exact ⟨by decide, _, rfl, by decide⟩

theorem wit_SetchSetsOneChannel : Channel.a ≠ Channel.g := by decide

/-- LD32 on CR1: another register, and the offsets on both sides of its window. -/
theorem wit_LoadsAndBlendsChangeOnlyTheirDestination :
    destOf (.ld32 .c1 true) = some .c1 ∧ (∃ t, exec (.ld32 .c1 true) (operand 9) = .next t) ∧ CReg.c0 ≠ CReg.c1 ∧
    ¬ inCrWindow .c1 0x10C ∧ ¬ inCrWindow .c1 0x120 ∧ inCrWindow .c1 0x110 ∧ inCrWindow .c1 0x11C := by
  unfold inCrWindow
  exact ⟨rfl, ⟨_, rfl⟩, by decide⟩

theorem wit_ConversionsChangeOnlyResultAndRam :
    isConversion (.cvt32to5a3 true) = true ∧ (∃ t, exec (.cvt32to5a3 true) (operand 9) = .next t) ∧
    (0x010 : Offset) ≠ 0x014 ∧ (0x010 : Offset) ≠ 0x018 ∧ (0 : Nat) ≠ 1 := ⟨rfl, ⟨_, rfl⟩, by decide⟩

/-- Another register; and the destination of a command that resyncs. -/
theorem wit_NoCommandReadsTheStoredP5A3 :
    CReg.c1 ≠ CReg.c0 ∧ destOf (.mov .c0 .c0) = some .c0 ∧ isSetfmt (.mov .c0 .c0) = false := by decide

/-- A command that is not LDCH; an LDCH without `hasa`; a command that does not read OPA; one that reads its low half,
with values that differ above it. -/
theorem wit_CommandsReadOnlyTheirOperands :
    (∀ cd am hasa, Instr.mov .c0 .c1 ≠ .ldch cd am hasa) ∧ (∀ cd am, Instr.ldch .c0 true false ≠ .ldch cd am true) ∧
    opaUse (.mov .c0 .c1) = .unread ∧
    opaUse (.ld565 .c0) = .lowHalf ∧ (0xFFFF1234 : Word).toNat % 2 ^ 16 = (operand 0x00001234).opa.toNat % 2 ^ 16 := by
  refine ⟨fun _ _ _ h => (by cases h), fun _ _ h => (by cases h), rfl, rfl, by decide⟩

end Sys2Proof.Tests
end

section
/-! PROOFS. The state's family (10_state.md): the packed words as numbers, the window's constants, and who may change
the operand registers and RESULT. -/

namespace Sys2Proof.Machine

/-! ### Packed words as numbers -/

/-- Two words, one with bits only from bit `k` up and one with bits only below `k`, are joined by adding them. -/
theorem toNat_or_of_dvd_of_lt {w : Nat} {x y : BitVec w} (k : Nat) (hx : 2 ^ k ∣ x.toNat) (hy : y.toNat < 2 ^ k) :
    (x ||| y).toNat = x.toNat + y.toNat := by
  obtain ⟨m, hm⟩ := hx
  rw [BitVec.toNat_or, hm, Nat.two_pow_add_eq_or_of_lt hy]

/-- A shift that loses no bit multiplies. -/
theorem toNat_shiftLeft_of_fits {w : Nat} {x : BitVec w} (k : Nat) (h : 2 ^ k * x.toNat < 2 ^ w) :
    (x <<< k).toNat = 2 ^ k * x.toNat := by
  rw [BitVec.toNat_shiftLeft, Nat.shiftLeft_eq, Nat.mul_comm, Nat.mod_eq_of_lt h]

/-- A byte on a wider word, moved to its place. -/
theorem toNat_byte_shiftLeft (v : Byte) {w : Nat} (k : Nat) (hk : 8 + k ≤ w) :
    (v.setWidth w <<< k).toNat = 2 ^ k * v.toNat := by
  have hv : (v.setWidth w).toNat = v.toNat := BitVec.toNat_setWidth_of_le (by omega)
  have hfits : 2 ^ k * v.toNat < 2 ^ w := calc
    2 ^ k * v.toNat < 2 ^ k * 2 ^ 8 := Nat.mul_lt_mul_of_pos_left v.isLt (by positivity)
    _ = 2 ^ (8 + k) := by rw [← Nat.pow_add, Nat.add_comm]
    _ ≤ 2 ^ w := Nat.pow_le_pow_right (by decide) hk
  rw [toNat_shiftLeft_of_fits k (by rwa [hv]), hv]

/-- The top bits of a byte on a half word, its `d` low bits dropped. -/
theorem toNat_byte_shiftRight (v : Byte) (d : Nat) : (v.setWidth 16 >>> d).toNat = v.toNat / 2 ^ d := by
  rw [BitVec.toNat_ushiftRight, Nat.shiftRight_eq_div_pow, BitVec.toNat_setWidth_of_le (by decide)]

/-- The RGBA32 word as a number (40_codec.md R84). -/
theorem rgba32_toNat (ch : Channels) : (rgba32 ch).toNat = ch.n8888 := by
  have hr := toNat_byte_shiftLeft ch.r (w := 32) 24 (by decide)
  have hg := toNat_byte_shiftLeft ch.g (w := 32) 16 (by decide)
  have hb := toNat_byte_shiftLeft ch.b (w := 32) 8 (by decide)
  have ha : (ch.a.setWidth 32).toNat = ch.a.toNat := BitVec.toNat_setWidth_of_le (by decide)
  have hrg := toNat_or_of_dvd_of_lt (x := ch.r.setWidth 32 <<< 24) (y := ch.g.setWidth 32 <<< 16) 24
    (by omega) (by omega)
  have hrgb := toNat_or_of_dvd_of_lt (x := ch.r.setWidth 32 <<< 24 ||| ch.g.setWidth 32 <<< 16)
    (y := ch.b.setWidth 32 <<< 8) 16 (by omega) (by omega)
  rw [rgba32, toNat_or_of_dvd_of_lt 8 (by omega) (by omega), hrgb, hrg, hr, hg, hb, ha]
  rfl

/-- The RGB565 word as a number (40_codec.md R85). -/
theorem pack565_toNat (r g b : Byte) : (pack565 r g b).toNat = word565 r.toNat g.toNat b.toNat := by
  have hr : ((r.setWidth 16 >>> 3) <<< 11).toNat = 2 ^ 11 * (r.toNat / 2 ^ 3) := by
    rw [toNat_shiftLeft_of_fits, toNat_byte_shiftRight]
    rw [toNat_byte_shiftRight]; omega
  have hg : ((g.setWidth 16 >>> 2) <<< 5).toNat = 2 ^ 5 * (g.toNat / 2 ^ 2) := by
    rw [toNat_shiftLeft_of_fits, toNat_byte_shiftRight]
    rw [toNat_byte_shiftRight]; omega
  have hb := toNat_byte_shiftRight b 3
  have hrg := toNat_or_of_dvd_of_lt (x := (r.setWidth 16 >>> 3) <<< 11) (y := (g.setWidth 16 >>> 2) <<< 5) 11
    (by omega) (by omega)
  rw [pack565, toNat_or_of_dvd_of_lt 5 (by omega) (by omega), hrg, hr, hg, hb]
  rfl

/-! ### The map and the port -/

/-- A color register's window starts 16 bytes per register from `0x100` (20_memory.md R41). -/
theorem crBase_toNat (n : CReg) : (crBase n).toNat = 0x100 + 0x10 * n.code.toNat := by
  cases n <;> rfl

/-- Bits 5..4 of an offset number the color register (20_memory.md R41). -/
theorem windowCr_code_toNat (off : Offset) : (windowCr off).code.toNat = off.toNat / 16 % 4 := by
  have hbits : (off.extractLsb' 4 2).toNat = off.toNat / 16 % 4 := by
    simp [BitVec.extractLsb'_toNat, Nat.shiftRight_eq_div_pow]
  obtain h | h | h | h : off.toNat / 16 % 4 = 0 ∨ off.toNat / 16 % 4 = 1 ∨ off.toNat / 16 % 4 = 2 ∨
      off.toNat / 16 % 4 = 3 := by omega
  all_goals simp [windowCr, hbits, h, CReg.code]

/-- The color registers' half of the map gives a register to its own offset only. -/
theorem crRegAt_eq_some {off : Offset} {r : RegName} (hwin : off.extractLsb' 6 6 = 4) (h : crRegAt off = some r) :
    off = r.offset := by
  have hhigh : off.toNat / 64 % 64 = 4 := by
    simpa [BitVec.extractLsb'_toNat, Nat.shiftRight_eq_div_pow] using congrArg BitVec.toNat hwin
  have hlow : (off.extractLsb' 0 4).toNat = off.toNat % 16 := by simp [BitVec.extractLsb'_toNat]
  have hn := windowCr_code_toNat off
  have hbase := crBase_toNat (windowCr off)
  unfold crRegAt at h
  apply BitVec.eq_of_toNat_eq
  split at h <;> cases h
  all_goals
    simp [RegName.offset]
    omega

/-- The map gives a register to its own offset only (20_memory.md R41). -/
theorem regAt_eq_some {off : Offset} {r : RegName} (h : regAt off = some r) : off = r.offset := by
  unfold regAt at h
  split at h
  · exact crRegAt_eq_some ‹_› h
  · split at h <;> cases h <;> exact BitVec.eq_of_toNat_eq ‹_›

/-- An access inside the contract that writes is a 32-bit write to its offset. -/
theorem access_eq_writeAt {a : Access} {d : Word} (hc : a.inContract = true) (hk : a.kind = .write d) :
    PortEvent.access a = writeAt a.offset d := by
  obtain ⟨off, bytes, kind⟩ := a
  obtain ⟨rfl, -⟩ : bytes = 4 ∧ off.toNat % 4 = 0 := by simpa [Access.inContract] using hc
  cases hk
  rfl

/-- A step that takes a write to a register's offset is that register's write. -/
theorem step_writeAt_offset (s : State) (r : RegName) (d : Word) (rest : List PortEvent) :
    step (s.withPort (writeAt r.offset d :: rest)) = (s.withPort rest).writeReg r d := by
  rw [step_withPort, serve_writeAt _ _ (offset_aligned r), writeWindow_offset]

/-- `t` and `s` hold the same color registers, operands, RESULT and RAM: all of the LCU's state but ILL. -/
structure SameRegisters (s t : State) : Prop where
  cr : t.cr = s.cr
  opa : t.opa = s.opa
  opb : t.opb = s.opb
  opc : t.opc = s.opc
  opd : t.opd = s.opd
  result : t.result = s.result
  ram : t.ram = s.ram

/-- The only ways a step can change more than ILL: reset, a legal command, or a write to a register other than CMD. -/
theorem step_changes {s t : State} (h : step s = .next t) :
    (∃ rest, s.port = .reset :: rest) ∨
    (∃ rest w i, s.port = commandWrite w :: rest ∧ decode w = .ok i ∧ exec i (s.withPort rest) = .next t) ∨
    (∃ rest r d, r ≠ .cmd ∧ s.port = writeAt r.offset d :: rest ∧ t = regWritten (s.withPort rest) r d) ∨
    SameRegisters s t := by
  rcases step_cases h with ⟨-, rfl⟩ | ⟨e, rest, hp, ⟨rfl, -⟩ | ⟨a, rfl, hc, hread | ⟨d, hk, hwrite⟩⟩⟩
  · exact .inr (.inr (.inr ⟨rfl, rfl, rfl, rfl, rfl, rfl, rfl⟩))
  · exact .inl ⟨rest, hp⟩
  · obtain ⟨-, rfl⟩ := hread
    exact .inr (.inr (.inr ⟨rfl, rfl, rfl, rfl, rfl, rfl, rfl⟩))
  · rw [access_eq_writeAt hc hk] at hp
    rcases hwrite with ⟨hoff, i, hd, hx⟩ | ⟨-, -, rfl⟩ | ⟨r, hcmd, hr, rfl⟩ | ⟨-, rfl⟩
    · rw [hoff] at hp
      exact .inr (.inl ⟨rest, d, i, hp, hd, hx⟩)
    · exact .inr (.inr (.inr ⟨rfl, rfl, rfl, rfl, rfl, rfl, rfl⟩))
    · rw [regAt_eq_some hr] at hp
      exact .inr (.inr (.inl ⟨rest, r, d, hcmd, hp, rfl⟩))
    · exact .inr (.inr (.inr ⟨rfl, rfl, rfl, rfl, rfl, rfl, rfl⟩))

/-! ### Operand registers -/

/-- No command writes an operand register (10_state.md R30). -/
theorem exec_keeps_operands (i : Instr) (s : State) :
    ∃ t, exec i s = .next t ∧ t.opa = s.opa ∧ t.opb = s.opb ∧ t.opc = s.opc ∧ t.opd = s.opd := by
  rcases exec_cases i s with ⟨_, _, -, -, hx⟩ | ⟨_, _, -, -, hx⟩
  · exact ⟨_, hx, rfl, rfl, rfl, rfl⟩
  · exact ⟨_, hx, rfl, rfl, rfl, rfl⟩

/-- One of OPA to OPD, by name (10_state.md R30). -/
inductive RegName.IsOperand : RegName → Prop where
  | opa : IsOperand .opa
  | opb : IsOperand .opb
  | opc : IsOperand .opc
  | opd : IsOperand .opd

theorem SameRegisters.readReg_operand {s t : State} {r : RegName} (h : SameRegisters s t) (hr : r.IsOperand) :
    t.readReg r = s.readReg r := by
  cases hr
  · exact h.opa
  · exact h.opb
  · exact h.opc
  · exact h.opd

theorem exec_readReg_operand {i : Instr} {s t : State} {r : RegName} (h : exec i s = .next t) (hr : r.IsOperand) :
    t.readReg r = s.readReg r := by
  obtain ⟨u, hu, ha, hb, hc, hd⟩ := exec_keeps_operands i s
  obtain rfl : u = t := by simpa [hu] using h
  cases hr
  · exact ha
  · exact hb
  · exact hc
  · exact hd

/-- A register's write shows in an operand register only if it is that operand register's own. -/
theorem regWritten_readReg_operand (s : State) (r' : RegName) (d : Word) {r : RegName} (hr : r.IsOperand) :
    (regWritten s r' d).readReg r = if r' = r then d else s.readReg r := by
  cases hr <;> cases r' <;> rfl

/-- An operand register changes only by reset or by the host's write of the new value to it (10_state.md R30). -/
theorem operand_changed {s t : State} {r : RegName} (hr : r.IsOperand) (h : step s = .next t)
    (hne : t.readReg r ≠ s.readReg r) :
    ∃ rest, s.port = .reset :: rest ∨ s.port = writeAt r.offset (t.readReg r) :: rest := by
  rcases step_changes h with ⟨rest, hp⟩ | ⟨rest, w, i, -, -, hx⟩ | ⟨rest, r', d, -, hp, rfl⟩ | hsame
  · exact ⟨rest, .inl hp⟩
  · have hkept : t.readReg r = s.readReg r := (exec_readReg_operand hx hr).trans (by cases hr <;> rfl)
    exact absurd hkept hne
  · rw [regWritten_readReg_operand _ _ _ hr] at hne ⊢
    by_cases heq : r' = r
    · subst heq
      exact ⟨rest, .inr (by simpa using hp)⟩
    · have hkept : (s.withPort rest).readReg r = s.readReg r := by cases hr <;> rfl
      exact absurd (by simpa [heq] using hkept) hne
  · exact absurd (hsame.readReg_operand hr) hne

/-- Settles O26: reset and the four operand writes are the only steps that touch an operand register. -/
theorem operandRegistersChangeOnlyByTheHost : Obligations.OperandRegistersChangeOnlyByTheHost :=
  ⟨fun _ _ h => ⟨operand_changed .opa h, operand_changed .opb h, operand_changed .opc h, operand_changed .opd h⟩,
    exec_keeps_operands⟩

/-! ### RESULT and RAM -/

/-- A command that is no conversion keeps RESULT and RAM (10_state.md R31). -/
theorem exec_keeps_result {i : Instr} {s t : State} (h : exec i s = .next t) (hi : isConversion i = false) :
    t.result = s.result ∧ t.ram = s.ram := by
  rcases exec_cases i s with ⟨cd, c, -, -, hx⟩ | ⟨_, _, -, hconv, -⟩
  · obtain rfl : s.setCr cd c = t := by simpa [hx] using h
    exact ⟨rfl, rfl⟩
  · simp [hi] at hconv

/-- The host has no write to RESULT or RAM (20_memory.md R45). -/
theorem regWritten_keeps_result (s : State) (r : RegName) (d : Word) :
    (regWritten s r d).result = s.result ∧ (regWritten s r d).ram = s.ram := by
  cases r <;> exact ⟨rfl, rfl⟩

/-- Settles O27: of the steps that can change more than ILL, only reset and the conversions touch RESULT or RAM. -/
theorem resultChangesOnlyByConversions : Obligations.ResultChangesOnlyByConversions := by
  intro s t h hne
  have hchanged : ¬ (t.result = s.result ∧ t.ram = s.ram) := not_and_or.mpr hne
  rcases step_changes h with ⟨rest, hp⟩ | ⟨rest, w, i, hp, hd, hx⟩ | ⟨rest, r, d, -, -, rfl⟩ | hsame
  · exact ⟨rest, .inl hp⟩
  · cases hi : isConversion i with
    | true => exact ⟨rest, .inr ⟨w, i, hp, hd, hi⟩⟩
    | false => exact absurd (exec_keeps_result hx hi) hchanged
  · exact absurd (regWritten_keeps_result _ r d) hchanged
  · exact absurd ⟨hsame.result, hsame.ram⟩ hchanged

/-! ### Views, reset values and constants -/

/-- Settles O5: P32 and P565 are computed from the channels where they are read. -/
theorem viewsAlwaysMatchTheChannels : Obligations.ViewsAlwaysMatchTheChannels := by
  intro s n
  have h565 : (s.readReg (.crP565 n)).toNat = (s.getCr n).p565.toNat :=
    BitVec.toNat_setWidth_of_le (by decide)
  exact ⟨rgba32_toNat _, h565.trans (pack565_toNat ..)⟩

/-- The register CLR writes is the reset color register (41_color_load.md R110; 10_state.md R39). -/
theorem exec_clr_eq_reset (n : CReg) (s : State) : exec (.clr n) s = .next (s.setCr n .reset) := by
  have hpack : pack5A3 ⟨0, 0, 0, 0⟩ false = 0x8000 := by decide
  rw [exec_clr, hpack]
  rfl

/-- Settles O1: each register's reset value, and what the window computes from it. -/
theorem resetValuesOfEveryRegister : Obligations.ResetValuesOfEveryRegister := by
  refine ⟨State.getCr_reset, rfl, rfl, rfl, rfl, rfl, rfl, rfl, readWindow_offset _ .status,
    readWindow_offset _ .id, readWindow_offset _ .cfg, fun n => ?_, fun n s => ?_⟩
  · simp only [State.readReg, State.getCr_reset]
    decide
  · rw [State.getCr_reset, exec_clr_eq_reset]

/-- Settles O12: ID and CFG read constants, and their writes are the ignored ones. -/
theorem idAndCfgAreConstant : Obligations.IdAndCfgAreConstant := by
  intro s rest d
  have hid : s.readWindow 0x01C = 0x4C435501 := readWindow_offset s .id
  have hcfg : s.readWindow 0x020 = 0x00000004 := readWindow_offset s .cfg
  rw [hid, hcfg]
  exact ⟨rfl, by decide, by decide, by decide, by decide, rfl, by decide, by decide,
    step_writeAt_offset s .id d rest, step_writeAt_offset s .cfg d rest⟩

end Sys2Proof.Machine
end

section
/-! PROOFS. The window's family (20_memory.md): which offsets a write touches, what an access answers, and that a write
to any offset but CMD is idempotent. -/

namespace Sys2Proof.Machine

/-! ### Offsets a write leaves alone -/

/-- The offsets of CMD, OPA to OPD and STATUS, the registers a write has an effect on (20_memory.md R47). -/
def writableOffsets : List Nat := [0x000, 0x004, 0x008, 0x00C, 0x010, 0x018]

/-- A register that is none of CMD, OPA to OPD and STATUS ignores a write (20_memory.md R45). -/
theorem writeReg_of_not_writable (s : State) (d : Word) {r : RegName}
    (h : r.offset.toNat ∉ writableOffsets) : s.writeReg r d = .next s :=
  match r with
  | .cmd | .opa | .opb | .opc | .opd | .status => absurd (by decide) h
  | .result | .id | .cfg | .crP32 _ | .crP565 _ | .crP5a3 _ | .crMeta _ => rfl

/-- An offset that is none of CMD's, OPA's to OPD's and STATUS's ignores a write, mapped or not (20_memory.md R44, R45,
R47). -/
theorem writeWindow_of_not_writable (s : State) (d : Word) {off : Offset}
    (h : off.toNat ∉ writableOffsets) : s.writeWindow off d = .next s := by
  cases hr : regAt off with
  | none => simp [State.writeWindow, hr]
  | some r =>
    obtain rfl := regAt_eq_some hr
    rw [writeWindow_offset, writeReg_of_not_writable s d h]

/-- The registers lie from CMD to CFG and in the color-register windows (20_memory.md R41). -/
theorem offset_toNat_range (r : RegName) :
    r.offset.toNat ≤ 0x020 ∨ 0x100 ≤ r.offset.toNat ∧ r.offset.toNat < 0x140 := by
  cases r with
  | crP32 n | crP565 n | crP5a3 n | crMeta n => cases n <;> decide
  | _ => decide

/-- No register lies between CFG and the color-register windows, or above them (20_memory.md R44). -/
theorem regAt_eq_none {off : Offset} (hlow : 0x020 < off.toNat) (hcr : off.toNat < 0x100 ∨ 0x140 ≤ off.toNat) :
    regAt off = none := by
  cases hr : regAt off with
  | none => rfl
  | some r =>
    have hrange := offset_toNat_range r
    rw [← regAt_eq_some hr] at hrange
    omega

theorem readWindow_unmapped (s : State) {off : Offset} (h : regAt off = none) : s.readWindow off = 0 := by
  simp [State.readWindow, h]

/-! ### Steps that take an access -/

theorem step_readAt (s : State) (rest : List PortEvent) {off : Offset} (h : off.toNat % 4 = 0) :
    step (s.withPort (readAt off :: rest)) = .next ((s.withPort rest).reply (s.readWindow off)) := by
  rw [step_withPort, serve_readAt _ h]
  rfl

theorem step_writeAt (s : State) (rest : List PortEvent) (d : Word) {off : Offset} (h : off.toNat % 4 = 0) :
    step (s.withPort (writeAt off d :: rest)) = (s.withPort rest).writeWindow off d := by
  rw [step_withPort, serve_writeAt _ _ h]

theorem step_writeAt_not_writable (s : State) (rest : List PortEvent) (d : Word) {off : Offset}
    (h : off.toNat % 4 = 0) (hoff : off.toNat ∉ writableOffsets) :
    step (s.withPort (writeAt off d :: rest)) = .next (s.withPort rest) := by
  rw [step_writeAt s rest d h, writeWindow_of_not_writable _ d hoff]

/-- A STATUS write clears ILL by data bit 0, said as a number (20_memory.md R45). -/
theorem writeStatus_eq (s : State) (d : Word) :
    s.writeStatus d = { s with ill := if d.toNat % 2 = 1 then false else s.ill } := by
  have hbit : d.getLsbD 0 = decide (d.toNat % 2 = 1) := Nat.testBit_zero d.toNat
  rw [State.writeStatus, hbit]
  by_cases h : d.toNat % 2 = 1 <;> simp [h]

theorem step_writeAt_status (s : State) (rest : List PortEvent) (d : Word) :
    step (s.withPort (writeAt 0x018 d :: rest)) =
      .next { s.withPort rest with ill := if d.toNat % 2 = 1 then false else s.ill } :=
  (step_writeAt_offset s .status d rest).trans (congrArg _ (writeStatus_eq _ d))

/-! ### Writes to any offset but CMD -/

/-- Every write to an offset other than CMD's has the effect of a write to some register other than CMD: an unmapped
offset ignores it as ID does (20_memory.md R44, R45). -/
theorem exists_writeWindow_eq {off : Offset} (h : off ≠ 0x000) (d : Word) :
    ∃ r, ∀ s : State, s.writeWindow off d = .next (regWritten s r d) := by
  cases hr : regAt off with
  | none => exact ⟨.id, fun s => by simp [State.writeWindow, hr, regWritten]⟩
  | some r =>
    obtain rfl := regAt_eq_some hr
    refine ⟨r, fun s => ?_⟩
    rcases writeReg_cases s r d with ⟨rfl, -⟩ | ⟨-, hw⟩
    · exact absurd rfl h
    · rw [writeWindow_offset, hw]

/-- A register write neither looks at the port nor touches it. -/
theorem regWritten_withPort (s : State) (es : List PortEvent) (r : RegName) (d : Word) :
    regWritten (s.withPort es) r d = (regWritten s r d).withPort es := by
  cases r <;> rfl

/-- A second write of the same data to the same register changes nothing (20_memory.md R47). -/
theorem regWritten_idem (s : State) (r : RegName) (d : Word) :
    regWritten (regWritten s r d) r d = regWritten s r d := by
  cases r with
  | status => simp [regWritten, State.writeStatus]
  | _ => rfl

/-- Two equal writes in a row, to any offset but CMD, leave what one leaves (20_memory.md R47). -/
theorem runSteps_writeAt_twice (s : State) (rest : List PortEvent) (d : Word) {off : Offset}
    (h : off.toNat % 4 = 0) (hcmd : off ≠ 0x000) :
    runSteps 2 (s.withPort (writeAt off d :: writeAt off d :: rest)) =
      runSteps 1 (s.withPort (writeAt off d :: rest)) := by
  obtain ⟨r, hr⟩ := exists_writeWindow_eq hcmd d
  have hstep (u : State) (es : List PortEvent) :
      step (u.withPort (writeAt off d :: es)) = .next ((regWritten u r d).withPort es) := by
    rw [step_writeAt u es d h, hr, regWritten_withPort]
  rw [runSteps_succ 1 (hstep s _), runSteps_one, runSteps_one, hstep, hstep, regWritten_idem]

/-! ### The interface contract -/

theorem Access.inContract_iff (a : Access) : a.inContract = true ↔ a.bytes = 4 ∧ a.offset.toNat % 4 = 0 := by
  simp [Access.inContract]

/-- A CMD write always completes (60_exceptions.md R160). -/
theorem runCommand_completes (s : State) (w : Word) : ∃ t, s.runCommand w = .next t := by
  unfold State.runCommand
  cases decode w with
  | error _ => exact ⟨_, rfl⟩
  | ok i =>
    obtain ⟨t, ht, -⟩ := exec_withPort i s []
    exact ⟨t, ht⟩

theorem writeWindow_completes (s : State) (off : Offset) (d : Word) : ∃ t, s.writeWindow off d = .next t := by
  by_cases h : off = 0x000
  · subst h
    exact runCommand_completes s d
  · obtain ⟨r, hr⟩ := exists_writeWindow_eq h d
    exact ⟨_, hr s⟩

/-- An access inside the contract completes (20_memory.md R42, R47). -/
theorem access_completes (s : State) {a : Access} (h : a.inContract = true) : ∃ t, s.access a = .next t := by
  rw [State.access, if_pos h]
  cases a.kind with
  | read => exact ⟨_, rfl⟩
  | write d => exact writeWindow_completes s a.offset d

/-- The port refuses exactly the accesses outside the contract (20_memory.md R43). -/
theorem access_refused_iff (s : State) (a : Access) :
    s.access a = .refused .accessOutsideContract ↔ ¬ a.inContract = true := by
  constructor
  · intro href hin
    obtain ⟨t, ht⟩ := access_completes s hin
    cases ht.symm.trans href
  · exact fun hout => if_neg hout

/-! ### The window's obligations -/

/-- Settles O6: no register lies at these offsets, so a read returns 0 and a write is ignored. -/
theorem unmappedOffsetsReadZeroIgnoreWrites : Obligations.UnmappedOffsetsReadZeroIgnoreWrites := by
  intro s rest off d halign hlow hcr
  constructor
  · rw [step_readAt s rest halign, readWindow_unmapped s (regAt_eq_none hlow hcr)]
  · have hoff : off.toNat ∉ writableOffsets := by
      simp only [writableOffsets, List.mem_cons, List.not_mem_nil, or_false]
      omega
    exact step_writeAt_not_writable s rest d halign hoff

/-- Settles O7: the read-only offsets are none of the writable ones; CMD and STATUS have their own register's answer. -/
theorem readOnlyCmdAndStatusAccesses : Obligations.ReadOnlyCmdAndStatusAccesses := by
  intro s rest d
  refine ⟨fun off halign hro => ?_, ?_, step_writeAt_status s rest d⟩
  · have hoff : off.toNat ∉ writableOffsets := by
      simp only [writableOffsets, List.mem_cons, List.not_mem_nil, or_false] at hro ⊢
      omega
    exact step_writeAt_not_writable s rest d halign hoff
  · have hcmd : s.readWindow 0x000 = 0 := readWindow_offset s .cmd
    rw [step_readAt s rest (by decide), hcmd]

/-- Settles O8: each access has its own register's effect, and a write to any offset but CMD is idempotent. -/
theorem accessesHaveExactlyTheirEffect : Obligations.AccessesHaveExactlyTheirEffect := by
  intro s rest d
  refine ⟨fun off halign => ⟨?_, ?_, ?_⟩, ?_⟩
  · exact step_readAt s rest halign
  · exact step_writeAt_not_writable s rest d halign
  · exact runSteps_writeAt_twice s rest d halign
  · exact ⟨step_writeAt_offset s .opa d rest, step_writeAt_offset s .opb d rest, step_writeAt_offset s .opc d rest,
      step_writeAt_offset s .opd d rest, step_writeAt_status s rest d, step_writeAt_offset s .cmd d rest⟩

/-- Settles O9: the step serves the access, which completes inside the contract and is refused outside it. -/
theorem accessesOutsideTheContractAreRefused : Obligations.AccessesOutsideTheContractAreRefused := by
  intro s rest a
  calc
    (a.bytes ≠ 4 ∨ a.offset.toNat % 4 ≠ 0) ↔ ¬ a.inContract = true := by
      rw [a.inContract_iff, not_and_or]
    _ ↔ (s.withPort rest).access a = .refused .accessOutsideContract := (access_refused_iff _ a).symm
    _ ↔ step (s.withPort (.access a :: rest)) = .refused .accessOutsideContract := by
      rw [step_withPort, State.serve]

end Sys2Proof.Machine
end

section
/-! PROOFS. The decoder's family (30_encoding.md): the decoder, the opcode map as printed and the list of illegal words
are each compared with one reading of R61, R62 and R67 by fields, `FieldsLegal`. -/

namespace Sys2Proof.Machine

/-! ### What the fields of a legal word hold -/

/-- `F` stays below this number: 1 where no bit of it is used. SETFMT's limit leaves its extra condition out
(30_encoding.md R67). -/
def flagsLimit (op : Nat) : Nat :=
  if op ∈ opcodesWithoutF then 1 else if op ∈ [0x11, 0x25] then 2 else if op ∈ [0x14, 0x15] then 4 else 16

/-- A register field which the opcodes `ops` use stays below this number (30_encoding.md R61). -/
def regLimit (ops : List Nat) (op : Nat) : Nat := if op ∈ ops then Config.ncr else 1

/-- The fields `F`, `CD`, `CA` and `CB` of `w` stay below these numbers. -/
def FieldsBelow (f cd ca cb : Nat) (w : Word) : Prop :=
  (fieldF w).toNat < f ∧ (fieldCD w).toNat < cd ∧ (fieldCA w).toNat < ca ∧ (fieldCB w).toNat < cb

/-- The limits of an opcode hold for the word's fields. -/
def LimitsHold (op : Nat) (w : Word) : Prop :=
  FieldsBelow (flagsLimit op) (regLimit opcodesWithCD op) (regLimit opcodesWithCA op) (regLimit opcodesWithCB op) w

/-- SETFMT's extra condition on `F` (30_encoding.md R67). -/
def SetfmtCondition (w : Word) : Prop := (fieldOP w).toNat = 0x16 → (fieldF w).toNat ≤ 5 ∨ (fieldF w).toNat = 0xD

/-- An opcode of the map, no reserved bit, and in every other field a value which the opcode allows (30_encoding.md R61,
R62, R66, R67). -/
def FieldsLegal (w : Word) : Prop :=
  (fieldHighReserved w = 0 ∧ fieldLowReserved w = 0) ∧
  ((fieldOP w).toNat ∈ assignedOpcodes ∧ LimitsHold (fieldOP w).toNat w) ∧ SetfmtCondition w

/-! ### The decoder accepts the words whose fields are legal -/

/-- The decoder answers a value here, not a reason to refuse. -/
def Accepted {α : Type} (x : Except DecodeError α) : Prop := ∃ a, x = .ok a

theorem not_accepted_iff {α : Type} (x : Except DecodeError α) : ¬ Accepted x ↔ ∃ e, x = .error e := by
  cases x <;> simp [Accepted]

@[simp] theorem not_accepted_error {α : Type} (e : DecodeError) : ¬ Accepted (.error e : Except DecodeError α) := nofun

theorem accepted_pure {α : Type} (a : α) : Accepted (pure a : Except DecodeError α) := ⟨a, rfl⟩

theorem accepted_bind {α β : Type} (x : Except DecodeError α) (k : α → Except DecodeError β) :
    Accepted (x >>= k) ↔ ∃ a, x = .ok a ∧ Accepted (k a) := by
  cases x <;> simp [Accepted, bind, Except.bind]

theorem accepted_ite {α : Type} (p : Prop) [Decidable p] (e : DecodeError) (a : α) :
    Accepted (if p then .error e else .ok a) ↔ ¬ p := by
  split <;> simp [Accepted, *]

theorem exists_unusedZero_iff {n : Nat} (v : BitVec n) : (∃ u, unusedZero v = .ok u) ↔ v.toNat < 1 := by
  simp [unusedZero, BitVec.toNat_eq]

/-- A register field the command uses is accepted below `NCR` (30_encoding.md R61). -/
theorem exists_ofCode_creg_iff (v : BitVec 4) : (∃ c, CReg.ofCode v = .ok c) ↔ v.toNat < 4 := by
  constructor
  · rintro ⟨c, hc⟩
    rw [← CReg.code_of_ofCode hc]
    cases c <;> decide
  · have hcode : ∀ v : BitVec 4, v.toNat < 4 → ∃ c ∈ [CReg.c0, .c1, .c2, .c3], c.code = v := by decide
    intro hv
    obtain ⟨c, -, rfl⟩ := hcode v hv
    exact ⟨c, CReg.ofCode_code c⟩

/-- SETFMT accepts the codes of the six tags, with `am` only for RGB5A3 (30_encoding.md R67). -/
theorem exists_ofCode_format_iff (f : BitVec 4) :
    (∃ t, Format.ofCode (f.extractLsb' 0 3) = .ok t ∧ (f.getLsbD 3 = true → t = .rgb5a3)) ↔
      f.toNat ≤ 5 ∨ f.toNat = 0xD := by
  constructor
  · rintro ⟨t, ht, ham⟩
    replace ht := Format.code_of_ofCode ht
    revert f
    cases t <;> decide
  · have hcode : ∀ f : BitVec 4, f.toNat ≤ 5 ∨ f.toNat = 0xD →
        ∃ t ∈ [Format.rgb888, .rgba8888, .rgbf, .rgbaf, .rgb565, .rgb5a3],
          t.code = f.extractLsb' 0 3 ∧ (f.getLsbD 3 = true → t = .rgb5a3) := by decide
    intro hf
    obtain ⟨t, -, ht, ham⟩ := hcode f hf
    exact ⟨t, ht ▸ Format.ofCode_code t, ham⟩

theorem bits_3_1_unused_iff : ∀ f : BitVec 4, (f.extractLsb' 1 3).toNat < 1 ↔ f.toNat < 2 := by decide
theorem bits_3_2_unused_iff : ∀ f : BitVec 4, (f.extractLsb' 2 2).toNat < 1 ↔ f.toNat < 4 := by decide

section
variable (w : Word)

/-- A command whose one register is `CD` needs the bits `u` of `F` that it does not use to be 0, and `CA` and `CB`. -/
theorem accepted_destination_iff {n : Nat} (u : BitVec n) (mk : CReg → Instr) :
    Accepted (do
      unusedZero u
      unusedZero (fieldCA w)
      unusedZero (fieldCB w)
      return mk (← CReg.ofCode (fieldCD w))) ↔
    u.toNat < 1 ∧ (fieldCD w).toNat < 4 ∧ (fieldCA w).toNat < 1 ∧ (fieldCB w).toNat < 1 := by
  simp only [accepted_bind, accepted_pure, and_true, exists_and_right, exists_unusedZero_iff, exists_ofCode_creg_iff]
  tauto

@[simp] theorem accepted_decodeDest_iff (mk : CReg → Instr) :
    Accepted (decodeDest w mk) ↔ FieldsBelow 1 4 1 1 w :=
  accepted_destination_iff w (fieldF w) mk

@[simp] theorem accepted_decodeLd32_iff : Accepted (decodeLd32 w) ↔ FieldsBelow 2 4 1 1 w :=
  (accepted_destination_iff w _ _).trans (and_congr_left' (bits_3_1_unused_iff _))

@[simp] theorem accepted_decodeLdch_iff : Accepted (decodeLdch w) ↔ FieldsBelow 4 4 1 1 w :=
  (accepted_destination_iff w _ _).trans (and_congr_left' (bits_3_2_unused_iff _))

@[simp] theorem accepted_decodeSetch_iff : Accepted (decodeSetch w) ↔ FieldsBelow 4 4 1 1 w :=
  (accepted_destination_iff w _ _).trans (and_congr_left' (bits_3_2_unused_iff _))

@[simp] theorem accepted_decodeSetfmt_iff : Accepted (decodeSetfmt w) ↔
    FieldsBelow 16 4 1 1 w ∧ ((fieldF w).toNat ≤ 5 ∨ (fieldF w).toNat = 0xD) := by
  have hF : (fieldF w).toNat < 16 := (fieldF w).isLt
  simp only [decodeSetfmt, accepted_bind, accepted_ite, not_and, ne_eq, not_not, exists_and_right,
    exists_unusedZero_iff, exists_ofCode_creg_iff, exists_ofCode_format_iff, FieldsBelow]
  tauto

@[simp] theorem accepted_decodeMov_iff : Accepted (decodeMov w) ↔ FieldsBelow 1 4 4 1 w := by
  simp only [decodeMov, accepted_bind, accepted_pure, and_true, exists_and_right, exists_unusedZero_iff,
    exists_ofCode_creg_iff, FieldsBelow]
  tauto

@[simp] theorem accepted_decodeBlend_iff (mk : CReg → CReg → CReg → Instr) :
    Accepted (decodeBlend w mk) ↔ FieldsBelow 1 4 4 4 w := by
  simp only [decodeBlend, accepted_bind, accepted_pure, and_true, exists_and_right, exists_unusedZero_iff,
    exists_ofCode_creg_iff, FieldsBelow]

theorem accepted_decodeNoRegs_iff (i : Instr) : Accepted (decodeNoRegs w i) ↔
    (fieldCD w).toNat < 1 ∧ (fieldCA w).toNat < 1 ∧ (fieldCB w).toNat < 1 := by
  simp only [decodeNoRegs, accepted_bind, accepted_pure, and_true, exists_and_right, exists_unusedZero_iff]

@[simp] theorem accepted_decodeCvt_iff (i : Instr) : Accepted (decodeCvt w i) ↔ FieldsBelow 1 1 1 1 w := by
  simp only [decodeCvt, accepted_bind, accepted_decodeNoRegs_iff, exists_and_right, exists_unusedZero_iff, FieldsBelow]

@[simp] theorem accepted_decodeCvt32to5a3_iff : Accepted (decodeCvt32to5a3 w) ↔ FieldsBelow 2 1 1 1 w := by
  simp only [decodeCvt32to5a3, accepted_bind, accepted_decodeNoRegs_iff, exists_and_right, exists_unusedZero_iff,
    bits_3_1_unused_iff, FieldsBelow]

/-- The rows of the opcode map as the decoder takes them (30_encoding.md R66). -/
theorem accepted_decodeOpcode_iff : Accepted (decodeOpcode w) ↔
    ((fieldOP w).toNat ∈ assignedOpcodes ∧ LimitsHold (fieldOP w).toNat w) ∧ SetfmtCondition w := by
  unfold decodeOpcode SetfmtCondition
  split
  case h_18 => -- the arm of the opcodes in no row
    have hop : (fieldOP w).toNat ∉ assignedOpcodes := by simp_all [assignedOpcodes]
    simp [hop]
  all_goals
    simp [*, assignedOpcodes, LimitsHold, flagsLimit, regLimit, opcodesWithoutF, opcodesWithCD, opcodesWithCA,
      opcodesWithCB, Config.ncr]

theorem accepted_decode_iff : Accepted (decode w) ↔ FieldsLegal w := by
  rw [FieldsLegal, ← accepted_decodeOpcode_iff, decode]
  split
  · simp only [*, true_and]
  · simp only [*, not_accepted_error, false_and]

end

/-! ### The opcode map admits the words whose fields are legal -/

/-- Two words are equal exactly when their seven fields are (30_encoding.md R60). -/
theorem word_eq_iff_fields {v w : Word} : v = w ↔
    fieldOP v = fieldOP w ∧ (fieldHighReserved v = fieldHighReserved w ∧ fieldLowReserved v = fieldLowReserved w) ∧
    fieldF v = fieldF w ∧ fieldCD v = fieldCD w ∧ fieldCA v = fieldCA w ∧ fieldCB v = fieldCB w := by
  constructor
  · rintro rfl
    exact ⟨rfl, ⟨rfl, rfl⟩, rfl, rfl, rfl, rfl⟩
  · simp only [fieldOP, fieldHighReserved, fieldF, fieldLowReserved, fieldCD, fieldCA, fieldCB, BitVec.toNat_eq,
      BitVec.extractLsb'_toNat, Nat.shiftRight_eq_div_pow]
    omega

/-- A word fits a row exactly when each of its fields does. -/
theorem fits_iff_fields (row : OpcodeRow) (w : Word) : row.fits w = true ↔
    fieldOP w &&& fieldOP row.mask = fieldOP row.pattern ∧
    (fieldHighReserved w &&& fieldHighReserved row.mask = fieldHighReserved row.pattern ∧
      fieldLowReserved w &&& fieldLowReserved row.mask = fieldLowReserved row.pattern) ∧
    fieldF w &&& fieldF row.mask = fieldF row.pattern ∧ fieldCD w &&& fieldCD row.mask = fieldCD row.pattern ∧
    fieldCA w &&& fieldCA row.mask = fieldCA row.pattern ∧ fieldCB w &&& fieldCB row.mask = fieldCB row.pattern := by
  rw [OpcodeRow.fits, decide_eq_true_iff, word_eq_iff_fields]
  simp only [fieldOP, fieldHighReserved, fieldF, fieldLowReserved, fieldCD, fieldCA, fieldCB, BitVec.extractLsb'_and]

/-- A 4-bit field fits a row with these mask and match bits exactly when it is below `limit`. -/
abbrev FitsBelow (mask pattern : BitVec 4) (limit : Nat) : Prop :=
  ∀ v : BitVec 4, v &&& mask = pattern ↔ v.toNat < limit

/-- Every printed row wants the reserved bits 0 and keeps each of `F`, `CD`, `CA` and `CB` below its opcode's limit
(30_encoding.md R66). -/
theorem opcodeMap_limits : ∀ row ∈ opcodeMap,
    (∀ v, v &&& fieldHighReserved row.mask = fieldHighReserved row.pattern ↔ v = 0) ∧
    (∀ v, v &&& fieldLowReserved row.mask = fieldLowReserved row.pattern ↔ v = 0) ∧
    FitsBelow (fieldF row.mask) (fieldF row.pattern) (flagsLimit (fieldOP row.pattern).toNat) ∧
    FitsBelow (fieldCD row.mask) (fieldCD row.pattern) (regLimit opcodesWithCD (fieldOP row.pattern).toNat) ∧
    FitsBelow (fieldCA row.mask) (fieldCA row.pattern) (regLimit opcodesWithCA (fieldOP row.pattern).toNat) ∧
    FitsBelow (fieldCB row.mask) (fieldCB row.pattern) (regLimit opcodesWithCB (fieldOP row.pattern).toNat) := by
  decide

/-- Every mask covers bits 31..24 (30_encoding.md R63). -/
theorem fieldOP_mask : ∀ row ∈ opcodeMap, fieldOP row.mask = BitVec.allOnes 8 := by decide

/-- The rows' `OP` values differ (30_encoding.md R63). -/
theorem row_eq_of_fieldOP_eq : ∀ x ∈ opcodeMap, ∀ y ∈ opcodeMap, fieldOP x.pattern = fieldOP y.pattern → x = y := by
  decide

theorem fieldOP_pattern_assigned : ∀ row ∈ opcodeMap, (fieldOP row.pattern).toNat ∈ assignedOpcodes := by decide

theorem exists_row_of_assigned : ∀ op ∈ assignedOpcodes, ∃ row ∈ opcodeMap, (fieldOP row.pattern).toNat = op := by
  decide

/-- A word fits a row of the map when it has the row's opcode, no reserved bit and no field beyond its limit. -/
theorem fits_iff {row : OpcodeRow} (hrow : row ∈ opcodeMap) (w : Word) : row.fits w = true ↔
    fieldOP w = fieldOP row.pattern ∧ (fieldHighReserved w = 0 ∧ fieldLowReserved w = 0) ∧
      LimitsHold (fieldOP w).toNat w := by
  obtain ⟨hhigh, hlow, hf, hcd, hca, hcb⟩ := opcodeMap_limits row hrow
  rw [fits_iff_fields, fieldOP_mask row hrow, BitVec.and_allOnes, hhigh, hlow, hf, hcd, hca, hcb]
  refine and_congr_right fun hop => ?_
  rw [hop, LimitsHold, FieldsBelow]

theorem exists_fits_iff (w : Word) : (∃ row ∈ opcodeMap, row.fits w = true) ↔
    (fieldHighReserved w = 0 ∧ fieldLowReserved w = 0) ∧
      (fieldOP w).toNat ∈ assignedOpcodes ∧ LimitsHold (fieldOP w).toNat w := by
  constructor
  · rintro ⟨row, hrow, hfits⟩
    obtain ⟨hop, hreserved, hlimits⟩ := (fits_iff hrow w).mp hfits
    exact ⟨hreserved, hop ▸ fieldOP_pattern_assigned row hrow, hlimits⟩
  · rintro ⟨hreserved, hop, hlimits⟩
    obtain ⟨row, hrow, hpattern⟩ := exists_row_of_assigned _ hop
    exact ⟨row, hrow, (fits_iff hrow w).mpr ⟨(BitVec.eq_of_toNat_eq hpattern).symm, hreserved, hlimits⟩⟩

theorem legalWord_iff (w : Word) : legalWord w = true ↔ FieldsLegal w := by
  have hsetfmt : (decide (fieldOP w ≠ 0x16) || setfmtFlagsLegal w) = true ↔ SetfmtCondition w := by
    simp [setfmtFlagsLegal, SetfmtCondition, BitVec.toNat_eq, imp_iff_not_or]
  rw [legalWord, Bool.and_eq_true, List.any_eq_true, exists_fits_iff, hsetfmt, FieldsLegal, and_assoc]

/-- Settles O20: the decoder and the map accept the words whose fields are legal, and a row that fits has the word's
opcode, which no two rows share. -/
theorem decoderAgreesWithTheOpcodeMap : Obligations.DecoderAgreesWithTheOpcodeMap := by
  refine ⟨fun w => (accepted_decode_iff w).trans (legalWord_iff w).symm, fun w x hx y hy hxw hyw => ?_⟩
  obtain ⟨hxop, -⟩ := (fits_iff hx w).mp hxw
  obtain ⟨hyop, -⟩ := (fits_iff hy w).mp hyw
  exact row_eq_of_fieldOP_eq x hx y hy (hxop.symm.trans hyop)

/-! ### The listed words are those whose fields are not legal -/

/-- R64's clauses on a register field: an unused bit set, or a number of 4 or more. -/
theorem regClauses_iff (ops : List Nat) (op v : Nat) :
    (op ∉ ops ∧ v ≠ 0 ∨ op ∈ ops ∧ 4 ≤ v) ↔ ¬ v < regLimit ops op := by
  unfold regLimit Config.ncr
  split <;> simp [*]

/-- R64's clauses on the bits of `F` that a command does not use. -/
theorem flagClauses_iff (op : Nat) {v : Nat} (hv : v < 16) :
    (op ∈ opcodesWithoutF ∧ v ≠ 0 ∨ op ∈ [0x11, 0x25] ∧ 2 ≤ v ∨ op ∈ [0x14, 0x15] ∧ 4 ≤ v) ↔
      ¬ v < flagsLimit op := by
  unfold flagsLimit
  split_ifs <;> grind

theorem toNat_extractLsb'_eq_bitsOf (w : Word) (lo len : Nat) :
    (w.extractLsb' lo len).toNat = bitsOf w.toNat lo len := by
  rw [BitVec.extractLsb'_toNat, Nat.shiftRight_eq_div_pow, bitsOf]

/-- R64's clauses on SETFMT's format code and `am`. -/
theorem setfmtClauses_iff (w : Word) :
    (bitsOf w.toNat 24 8 = 0x16 ∧ 6 ≤ bitsOf w.toNat 16 3 ∨
      bitsOf w.toNat 24 8 = 0x16 ∧ bitsOf w.toNat 19 1 = 1 ∧ bitsOf w.toNat 16 3 ≠ 5) ↔ ¬ SetfmtCondition w := by
  simp only [SetfmtCondition, fieldOP, fieldF, toNat_extractLsb'_eq_bitsOf, bitsOf]
  omega

/-- Field by field, the clauses of R64 say that the field's value is not one its opcode allows. -/
theorem listedIllegal_iff (w : Word) : listedIllegal w.toNat ↔ ¬ FieldsLegal w := by
  have hF : bitsOf w.toNat 16 4 < 16 := Nat.mod_lt _ (by decide)
  simp only [FieldsLegal, LimitsHold, FieldsBelow, not_and_or, ← setfmtClauses_iff,
    BitVec.toNat_eq, BitVec.ofNat_eq_ofNat, BitVec.toNat_zero, fieldOP, fieldHighReserved, fieldF, fieldLowReserved,
    fieldCD, fieldCA, fieldCB, toNat_extractLsb'_eq_bitsOf]
  simp only [← regClauses_iff, ← flagClauses_iff _ hF, listedIllegal, ne_eq]
  exact iff_of_eq (by ac_rfl)

/-- Settles O21: the listed words and the refused words are those whose fields are not legal, and the port answers a
refused word by setting ILL. -/
theorem illegalWordsAreExactlyTheListed : Obligations.IllegalWordsAreExactlyTheListed := by
  intro w
  have hrefused : listedIllegal w.toNat ↔ ∃ r, decode w = .error r := by
    rw [listedIllegal_iff, ← accepted_decode_iff, not_accepted_iff]
  refine ⟨hrefused, fun hlisted s rest => ?_⟩
  obtain ⟨r, hr⟩ := hrefused.mp hlisted
  rw [step_withPort, serve_commandWrite, State.runCommand, hr]
  rfl

end Sys2Proof.Machine
end

section
/-! PROOFS. The codec's family (40_codec.md): what each expansion, word, decode and clamp is as a number, and from
these the round trips and the six stateless conversions. -/

namespace Sys2Proof.Machine

/-! ### Expansion -/

theorem expand3_toNat : ∀ v : BitVec 3, (expand3 v).toNat = wide3 v.toNat := by decide
theorem expand4_toNat : ∀ v : BitVec 4, (expand4 v).toNat = wide4 v.toNat := by decide
theorem expand5_toNat : ∀ v : BitVec 5, (expand5 v).toNat = wide5 v.toNat := by decide
theorem expand6_toNat : ∀ v : BitVec 6, (expand6 v).toNat = wide6 v.toNat := by decide

/-- Settles O32: the four formulas, and the table of `expand3` evaluated. -/
theorem expansionFormulas : Obligations.ExpansionFormulas :=
  ⟨expand3_toNat, expand4_toNat, expand5_toNat, expand6_toNat, by decide⟩

/-- A field of `len` bits is below `2 ^ len`. -/
theorem bitsOf_lt (n lo len : Nat) : bitsOf n lo len < 2 ^ len := Nat.mod_lt _ (by positivity)

/-! An expansion keeps its field on top (40_codec.md R89, R90): dropping the bits it added gives the field back. -/

theorem wide3_div {v : Nat} (h : v < 2 ^ 3) : wide3 v / 32 = v := by unfold wide3; omega
theorem wide4_div {v : Nat} (h : v < 2 ^ 4) : wide4 v / 16 = v := by unfold wide4; omega
theorem wide5_div {v : Nat} (h : v < 2 ^ 5) : wide5 v / 8 = v := by unfold wide5; omega
theorem wide6_div {v : Nat} (h : v < 2 ^ 6) : wide6 v / 4 = v := by unfold wide6; omega

/-! ### RGBA32 and `0x00RRGGBB` -/

/-- The four bytes of an RGBA32 word, red on top (40_codec.md R84). -/
theorem unpack32_toNat (w : Word) :
    (unpack32 w).r.toNat = bitsOf w.toNat 24 8 ∧ (unpack32 w).g.toNat = bitsOf w.toNat 16 8 ∧
    (unpack32 w).b.toNat = bitsOf w.toNat 8 8 ∧ (unpack32 w).a.toNat = bitsOf w.toNat 0 8 :=
  ⟨toNat_extractLsb'_eq_bitsOf .., toNat_extractLsb'_eq_bitsOf .., toNat_extractLsb'_eq_bitsOf ..,
    toNat_extractLsb'_eq_bitsOf ..⟩

/-- Tuples whose channels are the same numbers are equal. -/
theorem Channels.eq_of_toNat_eq {x y : Channels} (hr : x.r.toNat = y.r.toNat) (hg : x.g.toNat = y.g.toNat)
    (hb : x.b.toNat = y.b.toNat) (ha : x.a.toNat = y.a.toNat) : x = y := by
  cases x
  cases y
  rw [Channels.mk.injEq]
  exact ⟨BitVec.eq_of_toNat_eq hr, BitVec.eq_of_toNat_eq hg, BitVec.eq_of_toNat_eq hb, BitVec.eq_of_toNat_eq ha⟩

theorem unpack32_rgba32 (ch : Channels) : unpack32 (rgba32 ch) = ch := by
  obtain ⟨hr, hg, hb, ha⟩ := unpack32_toNat (rgba32 ch)
  simp only [rgba32_toNat, Channels.n8888, word8888, bitsOf] at hr hg hb ha
  apply Channels.eq_of_toNat_eq <;> omega

theorem rgba32_unpack32 (w : Word) : rgba32 (unpack32 w) = w := by
  obtain ⟨hr, hg, hb, ha⟩ := unpack32_toNat w
  apply BitVec.eq_of_toNat_eq
  rw [rgba32_toNat, Channels.n8888, hr, hg, hb, ha]
  unfold word8888 bitsOf
  omega

/-- Settles O33: as numbers, the four bytes of the word are the four channels. -/
theorem rgba32PacksLosslessly : Obligations.Rgba32PacksLosslessly :=
  ⟨fun ch => ⟨rgba32_toNat ch, unpack32_rgba32 ch⟩, rgba32_unpack32⟩

/-- The `0x00RRGGBB` word as a number (40_codec.md R94). -/
theorem rgb24_toNat (ch : Channels) : (rgb24 ch).toNat = word888 ch.r.toNat ch.g.toNat ch.b.toNat := by
  have hr := toNat_byte_shiftLeft ch.r (w := 32) 16 (by decide)
  have hg := toNat_byte_shiftLeft ch.g (w := 32) 8 (by decide)
  have hb : (ch.b.setWidth 32).toNat = ch.b.toNat := BitVec.toNat_setWidth_of_le (by decide)
  have hrg := toNat_or_of_dvd_of_lt (x := ch.r.setWidth 32 <<< 16) (y := ch.g.setWidth 32 <<< 8) 16
    (by omega) (by omega)
  rw [rgb24, toNat_or_of_dvd_of_lt 8 (by omega) (by omega), hrg, hr, hg, hb]
  rfl

/-! ### RGB565 -/

/-- A field of a 16-bit word as a number. -/
theorem toNat_halfField_eq_bitsOf (w : Half) (lo len : Nat) :
    (w.extractLsb' lo len).toNat = bitsOf w.toNat lo len := by
  rw [BitVec.extractLsb'_toNat, Nat.shiftRight_eq_div_pow, bitsOf]

theorem decode565_are565 (w : Half) : (decode565 w).are565 w.toNat := by
  simp only [decode565, Channels.are565, expand5_toNat, expand6_toNat, toNat_halfField_eq_bitsOf, true_and]
  decide

/-- Settles O34: the fields of the packed word, and the expanded fields of a decoded one. -/
theorem rgb565PackAndDecode : Obligations.Rgb565PackAndDecode :=
  ⟨pack565_toNat, decode565_are565⟩

/-- The channel values of a 565 word pack to it (40_codec.md R89). -/
theorem Channels.are565.n565_eq {ch : Channels} {w : Nat} (h : ch.are565 w) (hw : w < 2 ^ 16) : ch.n565 = w := by
  obtain ⟨hr, hg, hb, -⟩ := h
  rw [Channels.n565, word565, hr, hg, hb, wide5_div (bitsOf_lt ..), wide6_div (bitsOf_lt ..),
    wide5_div (bitsOf_lt ..)]
  unfold bitsOf
  omega

/-- Settles O36: packing keeps what each expansion holds on top. -/
theorem rgb565RoundTrip : Obligations.Rgb565RoundTrip := fun w =>
  BitVec.eq_of_toNat_eq ((pack565_toNat ..).trans ((decode565_are565 w).n565_eq w.isLt))

/-! ### RGB5A3 -/

/-- The `8 - d` top bits of a byte, put on a half word from bit `k` up. -/
theorem toNat_byteField (v : Byte) (d k : Nat) (hd : d ≤ 8) (hk : 8 - d + k ≤ 16) :
    ((v.setWidth 16 >>> d) <<< k).toNat = 2 ^ k * (v.toNat / 2 ^ d) := by
  have htop : v.toNat / 2 ^ d < 2 ^ (8 - d) :=
    Nat.div_lt_of_lt_mul (by rw [← Nat.pow_add, Nat.add_sub_cancel' hd]; exact v.isLt)
  have hfits : 2 ^ k * (v.toNat / 2 ^ d) < 2 ^ 16 := calc
    _ < 2 ^ k * 2 ^ (8 - d) := Nat.mul_lt_mul_of_pos_left htop (by positivity)
    _ = 2 ^ (8 - d + k) := by rw [← Nat.pow_add, Nat.add_comm]
    _ ≤ 2 ^ 16 := Nat.pow_le_pow_right (by decide) hk
  rw [toNat_shiftLeft_of_fits k (by rwa [toNat_byte_shiftRight]), toNat_byte_shiftRight]

/-- The RGB5A3 word as a number, in both modes (40_codec.md R87). -/
theorem pack5A3_toNat (ch : Channels) (am : Bool) : (pack5A3 ch am).toNat = ch.n5A3 am := by
  cases am with
  | true =>
    have ha := toNat_byteField ch.a 5 12 (by decide) (by decide)
    have hr := toNat_byteField ch.r 4 8 (by decide) (by decide)
    have hg := toNat_byteField ch.g 4 4 (by decide) (by decide)
    have hb := toNat_byte_shiftRight ch.b 4
    have har := toNat_or_of_dvd_of_lt (x := (ch.a.setWidth 16 >>> 5) <<< 12) (y := (ch.r.setWidth 16 >>> 4) <<< 8) 12
      (by omega) (by omega)
    have harg := toNat_or_of_dvd_of_lt (x := (ch.a.setWidth 16 >>> 5) <<< 12 ||| (ch.r.setWidth 16 >>> 4) <<< 8)
      (y := (ch.g.setWidth 16 >>> 4) <<< 4) 8 (by omega) (by omega)
    rw [pack5A3, if_pos rfl, toNat_or_of_dvd_of_lt 4 (by omega) (by omega), harg, har, ha, hr, hg, hb]
    rfl
  | false =>
    have hr := toNat_byteField ch.r 3 10 (by decide) (by decide)
    have hg := toNat_byteField ch.g 3 5 (by decide) (by decide)
    have hb := toNat_byte_shiftRight ch.b 3
    have hmode : (0x8000#16).toNat = 2 ^ 15 := rfl
    have hmr := toNat_or_of_dvd_of_lt (x := 0x8000#16) (y := (ch.r.setWidth 16 >>> 3) <<< 10) 15
      (by omega) (by omega)
    have hmrg := toNat_or_of_dvd_of_lt (x := 0x8000#16 ||| (ch.r.setWidth 16 >>> 3) <<< 10)
      (y := (ch.g.setWidth 16 >>> 3) <<< 5) 10 (by omega) (by omega)
    rw [pack5A3, if_neg (by decide), toNat_or_of_dvd_of_lt 5 (by omega) (by omega), hmrg, hmr, hmode, hr, hg, hb]
    rfl

/-- Bit 15 of a 16-bit word as a number. -/
theorem bitsOf_mode (w : Half) : bitsOf w.toNat 15 1 = (w.getLsbD 15).toNat := by
  rw [BitVec.getLsbD, Nat.toNat_testBit, bitsOf, Nat.pow_one]

theorem decode5A3_are5A3 (w : Half) : (decode5A3 w).1.are5A3 w.toNat := by
  unfold Channels.are5A3 decode5A3
  rw [bitsOf_mode]
  cases w.getLsbD 15 with
  | true =>
    simp only [expand5_toNat, toNat_halfField_eq_bitsOf, ↓reduceIte, Bool.toNat_true, true_and]
    decide
  | false =>
    simp only [expand3_toNat, expand4_toNat, toNat_halfField_eq_bitsOf, Bool.false_eq_true, ↓reduceIte,
      Bool.toNat_false, zero_ne_one, and_self]

/-- Alpha is meaningful exactly when bit 15 is 0 (40_codec.md R88). -/
theorem decode5A3_am_iff (w : Half) : (decode5A3 w).2 = true ↔ bitsOf w.toNat 15 1 = 0 := by
  rw [decode5A3_am, bitsOf_mode]
  cases w.getLsbD 15 <;> decide

/-- Settles O35: the fields of the packed word in either mode, and the expanded fields of a decoded one. -/
theorem rgb5A3PackAndDecode : Obligations.Rgb5A3PackAndDecode := by
  refine ⟨pack5A3_toNat, fun w => ⟨decode5A3_are5A3 w, (decode5A3_am_iff w).trans ?_⟩⟩
  have hw : w.toNat < 2 ^ 16 := w.isLt
  unfold bitsOf
  omega

/-- The channel values of a 5A3 word pack to it in its own mode (40_codec.md R90). -/
theorem Channels.are5A3.n5A3_eq {ch : Channels} {w : Nat} {am : Bool} (h : ch.are5A3 w) (hw : w < 2 ^ 16)
    (ham : am = true ↔ bitsOf w 15 1 = 0) : ch.n5A3 am = w := by
  have hbit := bitsOf_lt w 15 1
  unfold Channels.are5A3 at h
  unfold Channels.n5A3 word5A3
  cases am with
  | true =>
    have hmode : bitsOf w 15 1 = 0 := ham.mp rfl
    obtain ⟨hr, hg, hb, ha⟩ := by simpa only [hmode, zero_ne_one, ↓reduceIte] using h
    rw [if_pos rfl, hr, hg, hb, ha, wide3_div (bitsOf_lt ..), wide4_div (bitsOf_lt ..), wide4_div (bitsOf_lt ..),
      wide4_div (bitsOf_lt ..)]
    unfold bitsOf at *
    omega
  | false =>
    have hmode : bitsOf w 15 1 = 1 := by have := mt ham.mpr (by decide); omega
    obtain ⟨hr, hg, hb, -⟩ := by simpa only [hmode, ↓reduceIte] using h
    rw [if_neg (by decide), hr, hg, hb, wide5_div (bitsOf_lt ..), wide5_div (bitsOf_lt ..), wide5_div (bitsOf_lt ..)]
    unfold bitsOf at *
    omega

/-- Settles O37: the decoded mode picks the same layout, and packing keeps what each expansion holds on top. -/
theorem rgb5A3RoundTrip : Obligations.Rgb5A3RoundTrip := fun w =>
  BitVec.eq_of_toNat_eq
    ((pack5A3_toNat ..).trans ((decode5A3_are5A3 w).n5A3_eq w.isLt (decode5A3_am_iff w)))

/-! ### Clamping -/

/-- A clamped value is in range, so clamping keeps it (40_codec.md R91). -/
theorem clampInt_clampInt (x : Int) : clampInt (clampInt x) = clampInt x :=
  clampInt_of_inrange ((inrange8_iff _).mpr ⟨clampInt_nonneg x, clampInt_le x⟩)

/-- Settles O38: the stored byte is the clamped value, which is in range. -/
theorem clampLaws : Obligations.ClampLaws := by
  intro x
  refine ⟨clamp8_toNat x, inrange8_iff x, ?_, clampInt_nonneg x, clampInt_le x⟩
  rw [clamp8_toNat, clamp8, clampInt_clampInt, clamp8]

/-! ### The stateless conversions -/

/-- `OPA[15:0]` as a number (30_encoding.md R68). -/
theorem State.opaHalf_toNat (s : State) : s.opaHalf.toNat = s.opa.toNat % 2 ^ 16 := by
  rw [State.opaHalf, BitVec.extractLsb'_toNat, Nat.shiftRight_zero]

/-- Settles O48: both conversions write a word of the same decoded channels. -/
theorem cvt565Converts : Obligations.Cvt565Converts := fun s =>
  ⟨by decide, by decide, _, _, decode565 s.opaHalf, exec_cvt565to32 s, exec_cvt565to24 s,
    s.opaHalf_toNat ▸ decode565_are565 _, rgba32_toNat _, rgb24_toNat _⟩

/-- Bit 15 of a word is bit 15 of its low half. -/
theorem bitsOf_mode_mod (n : Nat) : bitsOf (n % 2 ^ 16) 15 1 = bitsOf n 15 1 := by
  unfold bitsOf
  omega

/-- Settles O49: both conversions write a word of the same decoded channels, and the mode of `OPA[15:0]`. -/
theorem cvt5a3Converts : Obligations.Cvt5a3Converts := by
  intro s
  have ham : (decode5A3 s.opaHalf).2 = true ↔ bitsOf s.opa.toNat 15 1 = 0 := by
    rw [decode5A3_am_iff, s.opaHalf_toNat, bitsOf_mode_mod]
  exact ⟨by decide, by decide, _, _, _, (decode5A3 s.opaHalf).1, exec_cvt5a3to32 s, exec_cvt5a3to24 s,
    s.opaHalf_toNat ▸ decode5A3_are5A3 _, ham, rgba32_toNat _, rgb24_toNat _⟩

/-- Settles O50: both conversions pack the bytes of OPA into the low half of RESULT. -/
theorem cvt32Converts : Obligations.Cvt32Converts := by
  intro am s
  obtain ⟨hr, hg, hb, ha⟩ := unpack32_toNat s.opa
  have hcode : (encode (.cvt32to5a3 am)).toNat = 0x25000000 + 2 ^ 16 * am.toNat := by cases am <;> decide
  refine ⟨by decide, hcode, _, _, exec_cvt32to565 s, ?_, exec_cvt32to5a3 am s, ?_⟩
  · rw [BitVec.toNat_setWidth_of_le (by decide), pack565_toNat, State.opaRgba32, hr, hg, hb]
  · rw [BitVec.toNat_setWidth_of_le (by decide), pack5A3_toNat, Channels.n5A3, State.opaRgba32, hr, hg, hb, ha]

end Sys2Proof.Machine
end

section
/-! PROOFS. The color-register commands (41_color_load.md): the word of each as a number, and what it leaves in its
destination, from the codec's values as numbers. -/

namespace Sys2Proof.Machine

/-! ### Command words as numbers -/

/-- Joining two bit strings adds the upper one, moved up by the width of the lower one. -/
theorem toNat_append_eq_add {m n : Nat} (x : BitVec m) (y : BitVec n) :
    (x ++ y).toNat = 2 ^ n * x.toNat + y.toNat := by
  rw [BitVec.toNat_append, Nat.shiftLeft_eq, Nat.mul_comm, Nat.two_pow_add_eq_or_of_lt y.isLt]

/-- A command word as a number, from its fields (30_encoding.md R60). -/
theorem wordOf_toNat (op : BitVec 8) (f cd ca cb : BitVec 4) : (wordOf op f cd ca cb).toNat =
    2 ^ 24 * op.toNat + 2 ^ 16 * f.toNat + 2 ^ 8 * cd.toNat + 2 ^ 4 * ca.toNat + cb.toNat := by
  show BitVec.toNat (w := 8 + 4 + 4 + 4 + 4 + 4 + 4) (op ++ 0#4 ++ f ++ 0#4 ++ cd ++ ca ++ cb) = _
  simp only [toNat_append_eq_add, BitVec.toNat_zero]
  omega

/-- A command word that names only a destination (30_encoding.md R66). -/
theorem wordOf_dest_toNat (op : BitVec 8) (f cd : BitVec 4) :
    (wordOf op f cd 0 0).toNat = 2 ^ 24 * op.toNat + 2 ^ 16 * f.toNat + 2 ^ 8 * cd.toNat :=
  wordOf_toNat op f cd 0 0

theorem flagBit_toNat (b : Bool) : (flagBit b).toNat = b.toNat := BitVec.toNat_ofBool b

/-! ### Color-register commands -/

/-- Settles O39: CLR writes the reset color register. -/
theorem clrGivesTheDefaultValue : Obligations.ClrGivesTheDefaultValue := fun cd s =>
  ⟨wordOf_dest_toNat 0x10 0 cd.code, exec_clr_eq_reset cd s⟩

/-- Settles O40: the channels are the bytes of OPA, which pack to it again. -/
theorem ld32Loads : Obligations.Ld32Loads := by
  intro cd am s
  have hword : (encode (.ld32 cd am)).toNat = 0x11000000 + 2 ^ 16 * am.toNat + 2 ^ 8 * cd.code.toNat := by
    simp only [encode, wordOf_dest_toNat, toNat_append_eq_add, flagBit_toNat, BitVec.reduceToNat]
    omega
  obtain ⟨hr, hg, hb, ha⟩ := unpack32_toNat s.opa
  have h8888 : (unpack32 s.opa).n8888 = s.opa.toNat := by rw [← rgba32_toNat, rgba32_unpack32]
  exact ⟨hword, _, _, exec_ld32 cd am s, hr, hg, hb, ha, pack5A3_toNat .., h8888⟩

/-- Settles O41: the channels are those of `OPA[15:0]`, which they pack to again. -/
theorem ld565Loads : Obligations.Ld565Loads := by
  intro cd s
  have hch : (decode565 s.opaHalf).are565 (s.opa.toNat % 2 ^ 16) := s.opaHalf_toNat ▸ decode565_are565 _
  exact ⟨wordOf_dest_toNat 0x12 0 cd.code, _, _, exec_ld565 cd s, hch, pack5A3_toNat ..,
    hch.n565_eq (Nat.mod_lt _ (by decide))⟩

/-- Settles O42: the channels are those of `OPA[15:0]` in its mode, so the regenerated P5A3 is `OPA[15:0]`. -/
theorem ld5a3Loads : Obligations.Ld5a3Loads := by
  intro cd s
  have ham : (decode5A3 s.opaHalf).2 = true ↔ bitsOf s.opa.toNat 15 1 = 0 := by
    rw [decode5A3_am_iff, s.opaHalf_toNat, bitsOf_mode_mod]
  have hp : (pack5A3 (decode5A3 s.opaHalf).1 (decode5A3 s.opaHalf).2).toNat = s.opa.toNat % 2 ^ 16 := by
    rw [rgb5A3RoundTrip, s.opaHalf_toNat]
  exact ⟨wordOf_dest_toNat 0x13 0 cd.code, _, _, _, exec_ld5a3 cd s, s.opaHalf_toNat ▸ decode5A3_are5A3 _, ham,
    hp, pack5A3_toNat ..⟩

/-- VALID of LDCH checks OPD only with `hasa` (41_color_load.md R114). -/
theorem State.rawOperands_inRange_iff (s : State) (hasa : Bool) : (s.rawOperands hasa).inRange = true ↔
    fits8 s.opa.toInt ∧ fits8 s.opb.toInt ∧ fits8 s.opc.toInt ∧ (hasa = true → fits8 s.opd.toInt) := by
  cases hasa <;> simp [State.rawOperands, RawChannels.inRange, sext32, fits8, inrange8_iff, and_assoc]

/-- Settles O43: every operand supplied is clamped as 40_codec.md R91 says, and checked for range. -/
theorem ldchLoads : Obligations.LdchLoads := by
  intro cd am hasa s
  have hword : (encode (.ldch cd am hasa)).toNat =
      0x14000000 + 2 ^ 17 * hasa.toNat + 2 ^ 16 * am.toNat + 2 ^ 8 * cd.code.toNat := by
    simp only [encode, wordOf_dest_toNat, toNat_append_eq_add, flagBit_toNat, BitVec.reduceToNat]
    omega
  have ha : ((s.rawOperands hasa).clamp.a.toNat : Int) = if hasa then clamped s.opd.toInt else 255 := by
    cases hasa with
    | true => exact clamp8_toNat _
    | false => rfl
  exact ⟨hword, _, _, _, exec_ldch cd am hasa s, clamp8_toNat _, clamp8_toNat _, clamp8_toNat _, ha,
    pack5A3_toNat .., s.rawOperands_inRange_iff hasa⟩

/-- Settles O44: the channel named is set to the clamped OPA, and the read-after-write laws give the others. -/
theorem setchSetsOneChannel : Obligations.SetchSetsOneChannel := by
  intro cd k s
  have hword : (encode (.setch cd k)).toNat = 0x15000000 + 2 ^ 16 * k.code.toNat + 2 ^ 8 * cd.code.toNat := by
    simp only [encode, wordOf_dest_toNat, toNat_append_eq_add, BitVec.reduceToNat]
    omega
  have hset : ((((s.getCr cd).ch.set k (clamp8 s.opaChannel)).get k).toNat : Int) = clamped s.opa.toInt := by
    rw [Channels.get_set_same]
    exact clamp8_toNat _
  exact ⟨hword, _, _, _, exec_setch cd k s, hset, fun _ hj => Channels.get_set_other _ _ hj, pack5A3_toNat ..,
    inrange8_iff _⟩

/-- The table of 41_color_load.md R116: the tags with alpha set AM, RGB5A3 takes the caller's flag. -/
theorem amOfFmt_eq (fmt : Format) (am : Bool) : amOfFmt fmt am =
    if fmt = .rgba8888 ∨ fmt = .rgbaf then true else if fmt = .rgb5a3 then am else false := by
  cases fmt <;> rfl

/-- Settles O45: SETFMT writes FMT and AM of its destination and does no resync. -/
theorem setfmtWritesTagAndAm : Obligations.SetfmtWritesTagAndAm := by
  intro cd fmt am s
  have hword : (encode (.setfmt cd fmt am)).toNat =
      0x16000000 + 2 ^ 19 * am.toNat + 2 ^ 16 * fmt.code.toNat + 2 ^ 8 * cd.code.toNat := by
    simp only [encode, wordOf_dest_toNat, toNat_append_eq_add, flagBit_toNat, BitVec.reduceToNat]
    omega
  exact ⟨hword, by rw [exec_setfmt, amOfFmt_eq]⟩

/-- Settles O46: a whole-value assignment of the source, whose P5A3 is packed anew. -/
theorem movCopiesAndResyncs : Obligations.MovCopiesAndResyncs := fun cd ca s =>
  ⟨wordOf_toNat 0x17 0 cd.code ca.code 0, _, exec_mov cd ca s, pack5A3_toNat ..⟩

end Sys2Proof.Machine
end

section
/-! PROOFS. The blender's family (42_blend.md): what a blend leaves in each lane and in VALID for any operation on
integers, and from this the three commands. -/

namespace Sys2Proof.Machine

/-! ### The lanes of a blend -/

/-- No lane reads another: each holds the clamped result of its own two source values (42_blend.md R140). -/
theorem blended_get_toNat (op : Int → Int → Int) (x y : ColorReg) (k : Channel) :
    (((blended op x y).ch.get k).toNat : Int) = clampInt (op (x.ch.get k).toNat (y.ch.get k).toNat) := by
  cases k <;> exact clamp8_toNat _

/-- VALID says that the exact result of every lane was in range (42_blend.md R140). -/
theorem blended_valid_iff (op : Int → Int → Int) (x y : ColorReg) : (blended op x y).valid = true ↔
    ∀ k, inrange8 (op (x.ch.get k).toNat (y.ch.get k).toNat) = true := by
  constructor
  · intro hv k
    simp only [blended, blendLanes, RawChannels.inRange, Bool.and_eq_true] at hv
    obtain ⟨⟨⟨hr, hg⟩, hb⟩, ha⟩ := hv
    cases k <;> assumption
  · intro hk
    simp only [blended, blendLanes, RawChannels.inRange, Bool.and_eq_true]
    exact ⟨⟨⟨hk .r, hk .g⟩, hk .b⟩, hk .a⟩

/-- A blend whose operation clamps to `lane` and is in range where `fits` holds, for every two bytes, does so in all four
lanes. -/
theorem blended_spec {op : Int → Int → Int} {lane : Nat → Nat → Nat} {fits : Nat → Nat → Prop}
    (hlane : ∀ m n : Byte, clampInt (op m.toNat n.toNat) = lane m.toNat n.toNat)
    (hfits : ∀ m n : Byte, inrange8 (op m.toNat n.toNat) = true ↔ fits m.toNat n.toNat) (x y : ColorReg) :
    (∀ k, ((blended op x y).ch.get k).toNat = lane (x.ch.get k).toNat (y.ch.get k).toNat) ∧
    (blended op x y).p5a3.toNat = (blended op x y).ch.n5A3 x.am ∧
    ((blended op x y).valid = true ↔ ∀ k, fits (x.ch.get k).toNat (y.ch.get k).toNat) :=
  ⟨fun k => Int.ofNat_inj.mp ((blended_get_toNat op x y k).trans (hlane _ _)), pack5A3_toNat ..,
    (blended_valid_iff op x y).trans (forall_congr' fun _ => hfits _ _)⟩

/-! ### Saturation at one bound -/

/-- A sum or a product of channel values can pass only the upper bound (42_blend.md R141, R143). -/
theorem clampInt_natCast (n : Nat) : clampInt n = (min 255 n : Nat) := by
  unfold clampInt
  omega

theorem inrange8_natCast_iff (n : Nat) : inrange8 n = true ↔ n ≤ 255 := by
  rw [inrange8_iff]
  omega

/-- A difference of channel values can pass only the lower bound (42_blend.md R142). -/
theorem clampInt_byte_sub (m n : Byte) : clampInt (m.toNat - n.toNat) = (m.toNat - n.toNat : Nat) := by
  have hm : m.toNat < 256 := m.isLt
  unfold clampInt
  omega

theorem inrange8_byte_sub_iff (m n : Byte) : inrange8 (m.toNat - n.toNat) = true ↔ n.toNat ≤ m.toNat := by
  have hm : m.toNat < 256 := m.isLt
  rw [inrange8_iff]
  omega

/-! ### The blender's commands -/

/-- Settles O51: a sum of two natural numbers is one, which saturates at 255 only. -/
theorem addSaturates : Obligations.AddSaturates := fun cd ca cb s =>
  ⟨wordOf_toNat 0x30 0 cd.code ca.code cb.code, _, _, _, exec_add cd ca cb s,
    blended_spec (lane := fun m n => min 255 (m + n)) (fits := fun m n => m + n ≤ 255)
      (fun m n => clampInt_natCast (m.toNat + n.toNat)) (fun m n => inrange8_natCast_iff (m.toNat + n.toNat)) _ _⟩

/-- Settles O52: a difference of two bytes saturates at 0 only, where the subtraction of natural numbers stops. -/
theorem subSaturates : Obligations.SubSaturates := fun cd ca cb s =>
  ⟨wordOf_toNat 0x31 0 cd.code ca.code cb.code, _, _, _, exec_sub cd ca cb s,
    blended_spec (lane := fun m n => m - n) (fits := fun m n => n ≤ m) clampInt_byte_sub inrange8_byte_sub_iff _ _⟩

/-- Settles O53: a product of two natural numbers is one, which saturates at 255 only. -/
theorem mulSaturates : Obligations.MulSaturates := fun cd ca cb s =>
  ⟨wordOf_toNat 0x32 0 cd.code ca.code cb.code, _, _, _, exec_mul cd ca cb s,
    blended_spec (lane := fun m n => min 255 (m * n)) (fits := fun m n => m * n ≤ 255)
      (fun m n => clampInt_natCast (m.toNat * n.toNat)) (fun m n => inrange8_natCast_iff (m.toNat * n.toNat)) _ _⟩

end Sys2Proof.Machine
end

section
/-! PROOFS. The one error (60_exceptions.md): what an illegal CMD write does, all that a step can do to ILL, and that no
command writes ILL or looks at it. -/

namespace Sys2Proof.Machine

/-! ### The CMD write of an illegal word -/

/-- The decoder refuses exactly the words that no row of the opcode map makes legal (30_encoding.md R63). -/
theorem decode_error_iff (w : Word) : (∃ r, decode w = .error r) ↔ legalWord w = false := by
  rw [← not_accepted_iff, accepted_decode_iff, ← legalWord_iff, Bool.not_eq_true]

/-- An illegal word written to CMD raises the one error (60_exceptions.md R161). -/
theorem runCommand_of_illegal (s : State) {w : Word} (h : legalWord w = false) :
    s.runCommand w = .next s.raiseIllegal := by
  obtain ⟨r, hr⟩ := (decode_error_iff w).mpr h
  rw [State.runCommand, hr]

/-- Settles O22: the step is the word's CMD write, which raises the error. -/
theorem illegalCommandSetsIllOnly : Obligations.IllegalCommandSetsIllOnly := by
  intro s rest w h
  rw [step_withPort, serve_commandWrite, runCommand_of_illegal _ h, State.raiseIllegal]

/-! ### Commands and ILL -/

/-- No command writes ILL (60_exceptions.md R160). -/
theorem exec_keeps_ill (i : Instr) (s : State) : ∃ t, exec i s = .next t ∧ t.ill = s.ill := by
  rcases exec_cases i s with ⟨_, _, -, -, hx⟩ | ⟨_, _, -, -, hx⟩
  · exact ⟨_, hx, rfl⟩
  · exact ⟨_, hx, rfl⟩

/-- No command looks at ILL: each meaning computes the same fields from a state that differs in it only
(60_exceptions.md R162). -/
theorem exec_withIll (i : Instr) (s : State) (b : Bool) :
    ∃ t, exec i s = .next t ∧ exec i { s with ill := b } = .next { t with ill := b } := by
  cases i <;> exact ⟨_, rfl, rfl⟩

/-! ### What a step can do to ILL -/

/-- Of the register writes only STATUS's touches ILL, and it can only clear it (20_memory.md R45). -/
theorem regWritten_ill_cases (s : State) (r : RegName) (d : Word) :
    (r = .status ∧ d.toNat % 2 = 1 ∧ (regWritten s r d).ill = false) ∨ (regWritten s r d).ill = s.ill := by
  cases r with
  | status =>
    rw [regWritten, writeStatus_eq]
    by_cases hbit : d.toNat % 2 = 1
    · exact .inl ⟨rfl, hbit, if_pos hbit⟩
    · exact .inr (if_neg hbit)
  | _ => exact .inr rfl

/-- All that a step can do to ILL: reset clears it, an illegal CMD write sets it, and a STATUS write with data bit 0 set
clears it (10_state.md R32; 60_exceptions.md R160, R162). -/
theorem step_ill_cases {s t : State} (h : step s = .next t) :
    (∃ rest, s.port = .reset :: rest ∧ t.ill = false) ∨
    (∃ rest w, s.port = commandWrite w :: rest ∧ legalWord w = false ∧ t.ill = true) ∨
    (∃ rest, ∃ d : Word, s.port = writeAt 0x018 d :: rest ∧ d.toNat % 2 = 1 ∧ t.ill = false) ∨
    t.ill = s.ill := by
  rcases step_cases h with ⟨-, rfl⟩ | ⟨e, rest, hp, ⟨rfl, rfl⟩ | ⟨a, rfl, hc, hread | ⟨d, hk, hwrite⟩⟩⟩
  · exact .inr (.inr (.inr rfl))
  · exact .inl ⟨rest, hp, rfl⟩
  · obtain ⟨-, rfl⟩ := hread
    exact .inr (.inr (.inr rfl))
  · rw [access_eq_writeAt hc hk] at hp
    rcases hwrite with ⟨-, i, -, hx⟩ | ⟨hoff, hd, rfl⟩ | ⟨r, -, hr, rfl⟩ | ⟨-, rfl⟩
    · obtain ⟨u, hu, hill⟩ := exec_keeps_ill i (s.withPort rest)
      obtain rfl : u = t := by simpa [hu] using hx
      exact .inr (.inr (.inr hill))
    · rw [hoff] at hp
      exact .inr (.inl ⟨rest, d, hp, (decode_error_iff d).mp hd, rfl⟩)
    · rw [regAt_eq_some hr] at hp
      rcases regWritten_ill_cases (s.withPort rest) r d with ⟨rfl, hbit, hclear⟩ | hkept
      · exact .inr (.inr (.inl ⟨rest, d, hp, hbit, hclear⟩))
      · exact .inr (.inr (.inr hkept))
    · exact .inr (.inr (.inr rfl))

/-! ### The error's obligations -/

/-- The code of the error is STATUS bit 0 (60_exceptions.md R160). -/
theorem readWindow_status_bit0 (s : State) : (s.readWindow 0x018).getLsbD 0 = s.ill := by
  have hstatus : s.readWindow 0x018 = s.statusWord := readWindow_offset s .status
  rw [hstatus, State.statusWord, BitVec.getLsbD_append]
  simp

/-- Settles O23: of all a step can do to ILL only the illegal CMD write sets it, and the state it leaves does not name
the word. -/
theorem onlyIllegalWordsSetIll : Obligations.OnlyIllegalWordsSetIll := by
  refine ⟨fun s t h hs ht => ?_, exec_keeps_ill, readWindow_status_bit0, fun s rest v w hv hw => ?_⟩
  · rcases step_ill_cases h with ⟨_, -, hclear⟩ | ⟨rest, w, hp, hw, -⟩ | ⟨_, _, -, -, hclear⟩ | hkept
    · simp [ht] at hclear
    · exact ⟨w, rest, hp, hw⟩
    · simp [ht] at hclear
    · simp [hs, ht] at hkept
  · rw [illegalCommandSetsIllOnly s rest v hv, illegalCommandSetsIllOnly s rest w hw]

/-- An illegal CMD write after another leaves what it alone leaves: ILL is set again, to the same (60_exceptions.md
R162). -/
theorem runSteps_illegal_twice (s : State) (rest : List PortEvent) {v w : Word} (hv : legalWord v = false)
    (hw : legalWord w = false) :
    runSteps 2 (s.withPort (commandWrite v :: commandWrite w :: rest)) =
      runSteps 1 (s.withPort (commandWrite w :: rest)) := by
  have hagain : step { s.withPort (commandWrite w :: rest) with ill := true } =
      .next { s.withPort rest with ill := true } := illegalCommandSetsIllOnly { s with ill := true } rest w hw
  rw [runSteps_succ 1 (illegalCommandSetsIllOnly s _ v hv), runSteps_one, runSteps_one, hagain,
    illegalCommandSetsIllOnly s rest w hw]

/-- Settles O24: of all a step can do to ILL only reset and the STATUS write clear it, and no command looks at it. -/
theorem illIsStickyAndStopsNothing : Obligations.IllIsStickyAndStopsNothing := by
  refine ⟨fun s t h hs ht => ?_, exec_withIll, fun s rest _ _ => runSteps_illegal_twice s rest⟩
  rcases step_ill_cases h with ⟨rest, hp, -⟩ | ⟨_, _, -, -, hset⟩ | ⟨rest, d, hp, hbit, -⟩ | hkept
  · exact ⟨rest, .inl hp⟩
  · simp [ht] at hset
  · exact ⟨rest, .inr ⟨d, hp, hbit⟩⟩
  · simp [hs, ht] at hkept

end Sys2Proof.Machine
end

section
/-! PROOFS. The reset input's family (70_reset_and_hazards.md section 1): what the step that takes it leaves. -/

namespace Sys2Proof.Machine

/-- The step that takes the reset input asserts reset, and the events behind it stay at the port
(70_reset_and_hazards.md R180; log entry 14). -/
theorem step_reset (s : State) (rest : List PortEvent) :
    step (s.withPort (.reset :: rest)) = .next (s.withPort rest).assertReset :=
  step_withPort s .reset rest

/-- Settles O2: the state the reset step leaves is `assertReset`'s, which takes no register from the state before. -/
theorem resetInputRestoresEveryRegister : Obligations.ResetInputRestoresEveryRegister := by
  intro s rest
  have hcr : ∀ n, (s.withPort rest).assertReset.getCr n = ⟨⟨0, 0, 0, 0⟩, 0x8000, false, .rgb888, true⟩ :=
    State.getCr_assertReset _
  exact ⟨_, step_reset s rest, hcr, by simp⟩

end Sys2Proof.Machine
end

section
/-! PROOFS. The round trip of decoder and encoder (30_encoding.md R60 to R67): each arm of the decoder answers a command
exactly when the word's fields are the ones the encoder gives that command. -/

namespace Sys2Proof.Machine

/-! ### When the decoder's checks answer a value -/

theorem decode_bind_eq_ok_iff {α β : Type} (x : Except DecodeError α) (k : α → Except DecodeError β) (b : β) :
    x >>= k = .ok b ↔ ∃ a, x = .ok a ∧ k a = .ok b := by
  cases x <;> simp [bind, Except.bind]

theorem decode_pure_eq_ok_iff {α : Type} (a b : α) : (pure a : Except DecodeError α) = .ok b ↔ a = b := by
  simp [pure, Except.pure]

theorem unusedZero_eq_ok_iff {n : Nat} (v : BitVec n) (u : Unit) : unusedZero v = .ok u ↔ v = 0 := by
  simp [unusedZero]

theorem ofCode_creg_eq_ok_iff (v : BitVec 4) (c : CReg) : CReg.ofCode v = .ok c ↔ v = c.code :=
  ⟨fun h => (CReg.code_of_ofCode h).symm, fun h => h ▸ CReg.ofCode_code c⟩

theorem ofCode_format_eq_ok_iff (v : BitVec 3) (t : Format) : Format.ofCode v = .ok t ↔ v = t.code :=
  ⟨fun h => (Format.code_of_ofCode h).symm, fun h => h ▸ Format.ofCode_code t⟩

theorem setfmt_wellFormed_iff (cd : CReg) (t : Format) (am : Bool) :
    (Instr.setfmt cd t am).WellFormed ↔ ¬ (am = true ∧ t ≠ .rgb5a3) := by
  simp [Instr.WellFormed, Instr.wellFormed, imp_iff_not_or]

/-- SETFMT's last check refuses exactly the ill-formed command (30_encoding.md R67). -/
theorem setfmtCheck_eq_ok_iff (cd : CReg) (t : Format) (am : Bool) (i : Instr) :
    (if am = true ∧ t ≠ .rgb5a3 then .error .amWithoutRgb5a3 else .ok (.setfmt cd t am) : Except DecodeError Instr) =
      .ok i ↔ .setfmt cd t am = i ∧ i.WellFormed := by
  split
  · next hbad =>
    refine ⟨nofun, ?_⟩
    rintro ⟨rfl, hwf⟩
    exact absurd hbad ((setfmt_wellFormed_iff ..).mp hwf)
  · next hgood =>
    rw [Except.ok.injEq]
    refine ⟨?_, And.left⟩
    rintro rfl
    exact ⟨rfl, (setfmt_wellFormed_iff ..).mpr hgood⟩

/-! ### The field `F` by its flags (30_encoding.md R67) -/

theorem flags_am_eq_iff : ∀ (f : BitVec 4) (am : Bool),
    f = 0#3 ++ flagBit am ↔ f.extractLsb' 1 3 = 0 ∧ f.getLsbD 0 = am := by decide

theorem flags_hasa_am_eq_iff : ∀ (f : BitVec 4) (hasa am : Bool),
    f = 0#2 ++ flagBit hasa ++ flagBit am ↔ f.extractLsb' 2 2 = 0 ∧ f.getLsbD 0 = am ∧ f.getLsbD 1 = hasa := by decide

theorem flags_channel_eq_iff (f : BitVec 4) (k : Channel) :
    f = 0#2 ++ k.code ↔ f.extractLsb' 2 2 = 0 ∧ Channel.ofCode (f.extractLsb' 0 2) = k := by
  revert f
  cases k <;> decide

theorem flags_format_eq_iff (f : BitVec 4) (t : Format) (am : Bool) :
    f = flagBit am ++ t.code ↔ f.extractLsb' 0 3 = t.code ∧ f.getLsbD 3 = am := by
  revert f
  cases t <;> cases am <;> decide

/-! ### When an arm of the decoder answers a command -/

section
variable (w : Word) (i : Instr)

/-- The fields `F`, `CD`, `CA` and `CB` of `w` are these. -/
def FieldsAre (f cd ca cb : BitVec 4) : Prop :=
  fieldF w = f ∧ fieldCD w = cd ∧ fieldCA w = ca ∧ fieldCB w = cb

/-- A command whose one register is `CD`, with the bits `u` of `F` that it does not use. -/
theorem destination_eq_ok_iff {n : Nat} (u : BitVec n) (mk : CReg → Instr) :
    (do
      unusedZero u
      unusedZero (fieldCA w)
      unusedZero (fieldCB w)
      return mk (← CReg.ofCode (fieldCD w))) = .ok i ↔
    ∃ cd, mk cd = i ∧ u = 0 ∧ fieldCD w = cd.code ∧ fieldCA w = 0 ∧ fieldCB w = 0 := by
  simp only [decode_bind_eq_ok_iff, decode_pure_eq_ok_iff, unusedZero_eq_ok_iff, ofCode_creg_eq_ok_iff]
  grind

theorem decodeDest_eq_ok_iff (mk : CReg → Instr) :
    decodeDest w mk = .ok i ↔ ∃ cd, mk cd = i ∧ FieldsAre w 0 cd.code 0 0 :=
  destination_eq_ok_iff w i (fieldF w) mk

theorem decodeLd32_eq_ok_iff :
    decodeLd32 w = .ok i ↔ ∃ cd am, .ld32 cd am = i ∧ FieldsAre w (0#3 ++ flagBit am) cd.code 0 0 := by
  refine (destination_eq_ok_iff w i _ (.ld32 · ((fieldF w).getLsbD 0))).trans ?_
  simp only [FieldsAre, flags_am_eq_iff]
  grind

theorem decodeLdch_eq_ok_iff : decodeLdch w = .ok i ↔
    ∃ cd am hasa, .ldch cd am hasa = i ∧ FieldsAre w (0#2 ++ flagBit hasa ++ flagBit am) cd.code 0 0 := by
  refine (destination_eq_ok_iff w i _ (.ldch · ((fieldF w).getLsbD 0) ((fieldF w).getLsbD 1))).trans ?_
  simp only [FieldsAre, flags_hasa_am_eq_iff]
  grind

theorem decodeSetch_eq_ok_iff :
    decodeSetch w = .ok i ↔ ∃ cd k, .setch cd k = i ∧ FieldsAre w (0#2 ++ k.code) cd.code 0 0 := by
  refine (destination_eq_ok_iff w i _ (.setch · (.ofCode ((fieldF w).extractLsb' 0 2)))).trans ?_
  simp only [FieldsAre, flags_channel_eq_iff]
  grind

theorem decodeSetfmt_eq_ok_iff : decodeSetfmt w = .ok i ↔
    ∃ cd t am, (.setfmt cd t am = i ∧ i.WellFormed) ∧ FieldsAre w (flagBit am ++ t.code) cd.code 0 0 := by
  simp only [decodeSetfmt, decode_bind_eq_ok_iff, unusedZero_eq_ok_iff, ofCode_creg_eq_ok_iff, ofCode_format_eq_ok_iff,
    setfmtCheck_eq_ok_iff, FieldsAre, flags_format_eq_iff]
  grind

theorem decodeMov_eq_ok_iff :
    decodeMov w = .ok i ↔ ∃ cd ca, .mov cd ca = i ∧ FieldsAre w 0 cd.code ca.code 0 := by
  simp only [decodeMov, decode_bind_eq_ok_iff, decode_pure_eq_ok_iff, unusedZero_eq_ok_iff, ofCode_creg_eq_ok_iff,
    FieldsAre]
  grind

theorem decodeBlend_eq_ok_iff (mk : CReg → CReg → CReg → Instr) :
    decodeBlend w mk = .ok i ↔ ∃ cd ca cb, mk cd ca cb = i ∧ FieldsAre w 0 cd.code ca.code cb.code := by
  simp only [decodeBlend, decode_bind_eq_ok_iff, decode_pure_eq_ok_iff, unusedZero_eq_ok_iff, ofCode_creg_eq_ok_iff,
    FieldsAre]
  grind

theorem decodeNoRegs_eq_ok_iff (j : Instr) :
    decodeNoRegs w j = .ok i ↔ j = i ∧ fieldCD w = 0 ∧ fieldCA w = 0 ∧ fieldCB w = 0 := by
  simp only [decodeNoRegs, decode_bind_eq_ok_iff, decode_pure_eq_ok_iff, unusedZero_eq_ok_iff]
  grind

theorem decodeCvt_eq_ok_iff (j : Instr) : decodeCvt w j = .ok i ↔ j = i ∧ FieldsAre w 0 0 0 0 := by
  simp only [decodeCvt, decode_bind_eq_ok_iff, unusedZero_eq_ok_iff, decodeNoRegs_eq_ok_iff, FieldsAre]
  grind

theorem decodeCvt32to5a3_eq_ok_iff : decodeCvt32to5a3 w = .ok i ↔
    ∃ am, .cvt32to5a3 am = i ∧ FieldsAre w (0#3 ++ flagBit am) 0 0 0 := by
  simp only [decodeCvt32to5a3, decode_bind_eq_ok_iff, unusedZero_eq_ok_iff, decodeNoRegs_eq_ok_iff, FieldsAre,
    flags_am_eq_iff]
  grind

end

/-! ### The encoder's words -/

theorem fieldsAre_wordOf (op : BitVec 8) (f cd ca cb : BitVec 4) : FieldsAre (wordOf op f cd ca cb) f cd ca cb :=
  ⟨fieldF_wordOf .., fieldCD_wordOf .., fieldCA_wordOf .., fieldCB_wordOf ..⟩

/-- The reserved bits of an encoded word are 0, so its opcode alone picks the arm (30_encoding.md R60, R62). -/
theorem decode_wordOf (op : BitVec 8) (f cd ca cb : BitVec 4) :
    decode (wordOf op f cd ca cb) = decodeOpcode (wordOf op f cd ca cb) := by
  simp [decode]

/-- Settles O18: the word's opcode picks the command's own arm, and its fields are the ones that arm reads back. -/
theorem decodeOfEncodeIsTheCommand : Obligations.DecodeOfEncodeIsTheCommand := by
  intro i hwf
  cases i
  all_goals
    rw [encode, decode_wordOf, decodeOpcode, fieldOP_wordOf]
  case clr cd | ld565 cd | ld5a3 cd => exact (decodeDest_eq_ok_iff ..).mpr ⟨cd, rfl, fieldsAre_wordOf ..⟩
  case ld32 cd am => exact (decodeLd32_eq_ok_iff ..).mpr ⟨cd, am, rfl, fieldsAre_wordOf ..⟩
  case ldch cd am hasa => exact (decodeLdch_eq_ok_iff ..).mpr ⟨cd, am, hasa, rfl, fieldsAre_wordOf ..⟩
  case setch cd k => exact (decodeSetch_eq_ok_iff ..).mpr ⟨cd, k, rfl, fieldsAre_wordOf ..⟩
  case setfmt cd t am => exact (decodeSetfmt_eq_ok_iff ..).mpr ⟨cd, t, am, ⟨rfl, hwf⟩, fieldsAre_wordOf ..⟩
  case mov cd ca => exact (decodeMov_eq_ok_iff ..).mpr ⟨cd, ca, rfl, fieldsAre_wordOf ..⟩
  case cvt565to32 | cvt565to24 | cvt5a3to32 | cvt5a3to24 | cvt32to565 =>
    exact (decodeCvt_eq_ok_iff ..).mpr ⟨rfl, fieldsAre_wordOf ..⟩
  case cvt32to5a3 am => exact (decodeCvt32to5a3_eq_ok_iff ..).mpr ⟨am, rfl, fieldsAre_wordOf ..⟩
  case add cd ca cb | sub cd ca cb | mul cd ca cb =>
    exact (decodeBlend_eq_ok_iff ..).mpr ⟨cd, ca, cb, rfl, fieldsAre_wordOf ..⟩

/-- A word whose opcode is `op` and whose reserved bits are 0 is built from `op` and its fields. -/
theorem wordOf_eq_of_fieldsAre {w : Word} {op : BitVec 8} {f cd ca cb : BitVec 4}
    (hreserved : fieldHighReserved w = 0 ∧ fieldLowReserved w = 0) (hop : (fieldOP w).toNat = op.toNat)
    (h : FieldsAre w f cd ca cb) : wordOf op f cd ca cb = w := by
  obtain ⟨hhigh, hlow⟩ := hreserved
  obtain ⟨rfl, rfl, rfl, rfl⟩ := h
  rw [← BitVec.eq_of_toNat_eq hop, wordOf_fields hhigh hlow]

/-- Settles O19: the arm that answered the command found the encoder's fields in the word. -/
theorem encodeOfDecodeIsTheWord : Obligations.EncodeOfDecodeIsTheWord := by
  intro w i h
  rw [decode] at h
  split at h
  case isFalse => cases h
  case isTrue hreserved =>
  unfold decodeOpcode at h
  split at h
  case h_18 => cases h -- the arm of the opcodes in no row
  case h_1 hop | h_3 hop | h_4 hop =>
    obtain ⟨cd, rfl, hf⟩ := (decodeDest_eq_ok_iff ..).mp h
    exact ⟨rfl, wordOf_eq_of_fieldsAre hreserved hop hf⟩
  case h_2 hop =>
    obtain ⟨cd, am, rfl, hf⟩ := (decodeLd32_eq_ok_iff ..).mp h
    exact ⟨rfl, wordOf_eq_of_fieldsAre hreserved hop hf⟩
  case h_5 hop =>
    obtain ⟨cd, am, hasa, rfl, hf⟩ := (decodeLdch_eq_ok_iff ..).mp h
    exact ⟨rfl, wordOf_eq_of_fieldsAre hreserved hop hf⟩
  case h_6 hop =>
    obtain ⟨cd, k, rfl, hf⟩ := (decodeSetch_eq_ok_iff ..).mp h
    exact ⟨rfl, wordOf_eq_of_fieldsAre hreserved hop hf⟩
  case h_7 hop =>
    obtain ⟨cd, t, am, ⟨rfl, hwf⟩, hf⟩ := (decodeSetfmt_eq_ok_iff ..).mp h
    exact ⟨hwf, wordOf_eq_of_fieldsAre hreserved hop hf⟩
  case h_8 hop =>
    obtain ⟨cd, ca, rfl, hf⟩ := (decodeMov_eq_ok_iff ..).mp h
    exact ⟨rfl, wordOf_eq_of_fieldsAre hreserved hop hf⟩
  case h_9 hop | h_10 hop | h_11 hop | h_12 hop | h_13 hop =>
    obtain ⟨rfl, hf⟩ := (decodeCvt_eq_ok_iff ..).mp h
    exact ⟨rfl, wordOf_eq_of_fieldsAre hreserved hop hf⟩
  case h_14 hop =>
    obtain ⟨am, rfl, hf⟩ := (decodeCvt32to5a3_eq_ok_iff ..).mp h
    exact ⟨rfl, wordOf_eq_of_fieldsAre hreserved hop hf⟩
  case h_15 hop | h_16 hop | h_17 hop =>
    obtain ⟨cd, ca, cb, rfl, hf⟩ := (decodeBlend_eq_ok_iff ..).mp h
    exact ⟨rfl, wordOf_eq_of_fieldsAre hreserved hop hf⟩

end Sys2Proof.Machine
end

section
/-! PROOFS. The port's order and completion (20_memory.md section 4; 70_reset_and_hazards.md sections 1 and 3): what a
CMD write of a legal word runs, that every admitted event completes in its step, and from this every run of such
events. -/

namespace Sys2Proof.Machine

/-! ### The CMD write of a legal word -/

/-- The step that takes a CMD write of a legal word runs its command (30_encoding.md R65). -/
theorem step_commandWrite (s : State) (rest : List PortEvent) {w : Word} {i : Instr} (h : decode w = .ok i) :
    step (s.withPort (commandWrite w :: rest)) = exec i (s.withPort rest) := by
  rw [step_withPort, serve_commandWrite, State.runCommand, h]

/-- A word is placed for the host as a CMD write in front of the events waiting (log entry 3). -/
theorem withFetchWord_eq (s : State) (w : Word) :
    s.withFetchWord 32 w.toNat = s.withPort (commandWrite w :: s.port) := by
  have hw : tableWord 32 w.toNat = w := by
    rw [tableWord, Nat.mod_eq_of_lt w.isLt, BitVec.ofNat_toNat, BitVec.setWidth_eq]
  rw [State.withFetchWord, hw, State.withPort]

/-- Settles O16: both are the step that takes a CMD write of the word. -/
theorem stepRunsTheDecodedCommand : Obligations.StepRunsTheDecodedCommand := fun s rest w i h =>
  ⟨step_commandWrite s rest h, by rw [withFetchWord_eq]; exact step_commandWrite s s.port h⟩

/-- Settles O17: each word is the encoder's word of its command. -/
theorem specWordsDecode : Obligations.SpecWordsDecode :=
  have hdecode : ∀ i : Instr, i.WellFormed → decode (encode i) = .ok i := decodeOfEncodeIsTheCommand
  ⟨hdecode (.clr .c2) rfl, hdecode (.ld32 .c1 true) rfl, hdecode (.ld565 .c1) rfl, hdecode (.ld5a3 .c3) rfl,
    hdecode (.ldch .c0 true true) rfl, hdecode (.setch .c3 .a) rfl, hdecode (.setfmt .c0 .rgb5a3 true) rfl,
    hdecode (.mov .c1 .c0) rfl, hdecode .cvt5a3to32 rfl, hdecode (.cvt32to5a3 true) rfl,
    hdecode (.add .c2 .c0 .c1) rfl, hdecode (.sub .c2 .c1 .c0) rfl, hdecode (.mul .c2 .c0 .c1) rfl⟩

/-! ### Every admitted event completes in its step -/

/-- `t` holds the same events still to take and the same returned data as `s`. -/
def SamePort (s t : State) : Prop := t.port = s.port ∧ t.replies = s.replies

/-- No command takes an event or returns data (20_memory.md R51). -/
theorem exec_samePort {i : Instr} {s t : State} (h : exec i s = .next t) : SamePort s t := by
  rcases exec_cases i s with ⟨_, _, -, -, hx⟩ | ⟨_, _, -, -, hx⟩
  · cases h.symm.trans hx
    exact ⟨rfl, rfl⟩
  · cases h.symm.trans hx
    exact ⟨rfl, rfl⟩

theorem runCommand_samePort (s : State) (w : Word) : ∃ t, s.runCommand w = .next t ∧ SamePort s t := by
  obtain ⟨t, ht⟩ := runCommand_completes s w
  refine ⟨t, ht, ?_⟩
  rw [State.runCommand] at ht
  cases hw : decode w with
  | ok i => exact exec_samePort (by rwa [hw] at ht)
  | error _ =>
    rw [hw] at ht
    cases ht
    exact ⟨rfl, rfl⟩

theorem regWritten_samePort (s : State) (r : RegName) (d : Word) : SamePort s (regWritten s r d) := by
  cases r <;> exact ⟨rfl, rfl⟩

/-- A write returns no data (20_memory.md R47). -/
theorem writeWindow_samePort (s : State) (off : Offset) (d : Word) :
    ∃ t, s.writeWindow off d = .next t ∧ SamePort s t := by
  by_cases h : off = 0x000
  · subst h
    exact runCommand_samePort s d
  · obtain ⟨r, hr⟩ := exists_writeWindow_eq h d
    exact ⟨_, hr s, regWritten_samePort s r d⟩

/-- An admitted event is completed by the step that takes it, leaves the events behind it waiting, and returns one datum
if it is a read (20_memory.md R47, R51; log entries 1, 2, 9 and 14). -/
theorem step_admitted (s : State) (rest : List PortEvent) {e : PortEvent} (h : e.admitted = true) :
    ∃ t, step (s.withPort (e :: rest)) = .next t ∧ t.port = rest ∧
      t.replies.length = s.replies.length + if e.isRead then 1 else 0 := by
  rw [step_withPort]
  cases e with
  | reset => exact ⟨_, rfl, rfl, rfl⟩
  | accessDuringReset a => cases h
  | access a =>
    obtain ⟨off, bytes, kind⟩ := a
    have hin : Access.inContract ⟨off, bytes, kind⟩ = true := h
    rw [State.serve, State.access, if_pos hin]
    cases kind with
    | read => exact ⟨_, rfl, rfl, List.length_append⟩
    | write d =>
      obtain ⟨t, ht, hport, hreplies⟩ := writeWindow_samePort (s.withPort rest) off d
      exact ⟨t, ht, hport, congrArg List.length hreplies⟩

/-- Writing back the events a state holds changes nothing. -/
theorem State.withPort_self {s : State} {es : List PortEvent} (h : s.port = es) : s.withPort es = s := by
  rw [← h, State.withPort]

/-- Admitted events run to completion in as many steps as there are of them (20_memory.md R51). -/
theorem runSteps_admitted (es : List PortEvent) (s : State) (h : ∀ e ∈ es, e.admitted = true) :
    ∃ t, runSteps es.length (s.withPort es) = .next t ∧ t.port = [] ∧
      t.replies.length = s.replies.length + es.countP PortEvent.isRead := by
  induction es generalizing s with
  | nil => exact ⟨_, rfl, rfl, rfl⟩
  | cons e es ih =>
    obtain ⟨he, hes⟩ := List.forall_mem_cons.mp h
    obtain ⟨u, hu, hport, hreplies⟩ := step_admitted s es he
    obtain ⟨t, ht, hempty, hcount⟩ := ih u hes
    refine ⟨t, ?_, hempty, ?_⟩
    · rw [List.length_cons, runSteps_succ _ hu, ← ht, State.withPort_self hport]
    · rw [hcount, hreplies, List.countP_cons, Nat.add_assoc, Nat.add_comm (ite ..)]

/-- An interleaving holds each master's events, each as often as it was issued (20_memory.md R51, R53). -/
theorem Interleaving.perm {a b c : List PortEvent} (h : Interleaving a b c) : c.Perm (a ++ b) := by
  induction h with
  | done => exact .refl _
  | first e _ ih => exact ih.cons e
  | second e _ ih => exact (ih.cons e).trans List.perm_middle.symm

/-- Settles O15: an interleaving is a list of admitted events, with the two masters' count of events and of reads. -/
theorem everyInterleavingRunsToCompletion : Obligations.EveryInterleavingRunsToCompletion := by
  intro a b c s h ha hb
  have hperm := h.perm
  have hc : ∀ e ∈ c, e.admitted = true := fun e he =>
    (List.mem_append.mp (hperm.mem_iff.mp he)).elim (ha e) (hb e)
  obtain ⟨t, ht, hport, hreplies⟩ := runSteps_admitted c s hc
  rw [hperm.length_eq, List.length_append] at ht
  rw [hperm.countP_eq, List.countP_append, ← Nat.add_assoc] at hreplies
  exact ⟨t, ht, hport, hreplies⟩

/-- A read taken right after a command returns what the command left (70_reset_and_hazards.md section 3). -/
theorem runSteps_command_read (s : State) (rest : List PortEvent) {w : Word} {i : Instr} {off : Offset}
    (hw : decode w = .ok i) (hoff : off.toNat % 4 = 0) : ∃ u, exec i (s.withPort rest) = .next u ∧
      runSteps 2 (s.withPort (commandWrite w :: readAt off :: rest)) = .next (u.reply (u.readWindow off)) := by
  obtain ⟨t, ht, htread⟩ := exec_withPort i (s.withPort rest) (readAt off :: rest)
  have hport : t.port = rest := (exec_samePort ht).1
  have hcommand : step (s.withPort (commandWrite w :: readAt off :: rest)) = .next (t.withPort (readAt off :: rest)) :=
    (step_commandWrite s _ hw).trans htread
  refine ⟨t, ht, ?_⟩
  rw [runSteps_succ 1 hcommand, runSteps_one, step_readAt t rest hoff, State.withPort_self hport]

/-- Settles O14: each event completes in its step, so the read finds the state the command left. -/
theorem readAfterCommandSeesItsEffects : Obligations.ReadAfterCommandSeesItsEffects := by
  refine ⟨fun s e rest he => ?_, fun s w i off rest hw hoff => runSteps_command_read s rest hw hoff⟩
  obtain ⟨t, ht, hport, -⟩ := step_admitted s rest he
  exact ⟨t, ht, hport⟩

/-! ### After reset -/

/-- Settles O3: reset leaves the events behind it waiting, and the next step takes the first of them as any step
does. -/
theorem accessesAreAcceptedAtOnceAfterReset : Obligations.AccessesAreAcceptedAtOnceAfterReset := by
  intro s rest
  refine ⟨_, step_reset s rest, rfl, ?_, ?_⟩
  · rintro e tail rfl he
    obtain ⟨u, hu, hport, -⟩ := step_admitted (s.withPort (e :: tail)).assertReset tail he
    exact ⟨u, hu, hport⟩
  · rintro w tail rfl hw
    obtain ⟨i, hi⟩ := (accepted_decode_iff w).mpr ((legalWord_iff w).mp hw)
    obtain ⟨u, hu, hill⟩ := exec_keeps_ill i ((s.withPort (commandWrite w :: tail)).assertReset.withPort tail)
    exact ⟨i, u, hi, (step_commandWrite _ tail hi).trans hu, hu, hill⟩

/-- Settles O10: the port refuses the event itself. -/
theorem accessesOverlappingResetAreRefused : Obligations.AccessesOverlappingResetAreRefused := fun s rest a =>
  step_withPort s (.accessDuringReset a) rest

/-! ### The later of a clearing STATUS write and an error -/

/-- Settles O25: each of the two steps writes ILL alone, the one to 0 and the other to 1. -/
theorem laterOfClearAndErrorDecidesIll : Obligations.LaterOfClearAndErrorDecidesIll := by
  intro s rest w d hw hd
  have hset := illegalCommandSetsIllOnly
  have hclear (u : State) (es : List PortEvent) :
      step (u.withPort (writeAt 0x018 d :: es)) = .next { u.withPort es with ill := false } := by
    rw [step_writeAt_status, if_pos hd]
  constructor
  · rw [runSteps_succ 1 (hclear s _), runSteps_one]
    exact hset { s with ill := false } rest w hw
  · rw [runSteps_succ 1 (hset s _ w hw), runSteps_one]
    exact hclear { s with ill := true } rest

end Sys2Proof.Machine
end

section
/-! PROOFS. The window's reads and addresses (20_memory.md section 1; 10_state.md R32): what each mapped offset reads as
a number, and which bus addresses the window takes. -/

namespace Sys2Proof.Machine

/-! ### What the map reads -/

theorem statusWord_toNat (s : State) : s.statusWord.toNat = s.ill.toNat + 2 * s.ram.toNat := by
  show BitVec.toNat (w := 30 + 1 + 1) (0#30 ++ BitVec.ofBool s.ram ++ BitVec.ofBool s.ill) = _
  simp only [toNat_append_eq_add, BitVec.toNat_ofBool, BitVec.toNat_zero]
  omega

theorem metaWord_toNat (c : ColorReg) :
    c.metaWord.toNat = c.am.toNat + 2 * c.valid.toNat + 16 * c.fmt.code.toNat := by
  show BitVec.toNat (w := 25 + 3 + 2 + 1 + 1)
    (0#25 ++ c.fmt.code ++ 0#2 ++ BitVec.ofBool c.valid ++ BitVec.ofBool c.am) = _
  simp only [toNat_append_eq_add, BitVec.toNat_ofBool, BitVec.toNat_zero]
  omega

/-- Each of a color register's four views lies at its place in the register's window (20_memory.md R41). -/
theorem cr_offsets (n : CReg) :
    BitVec.ofNat 12 (0x100 + 0x10 * n.code.toNat) = (RegName.crP32 n).offset ∧
    BitVec.ofNat 12 (0x104 + 0x10 * n.code.toNat) = (RegName.crP565 n).offset ∧
    BitVec.ofNat 12 (0x108 + 0x10 * n.code.toNat) = (RegName.crP5a3 n).offset ∧
    BitVec.ofNat 12 (0x10C + 0x10 * n.code.toNat) = (RegName.crMeta n).offset := by
  cases n <;> decide

/-- Settles O4: each offset is a register's own, and reads the number of the word that register returns. -/
theorem registerMapReadValues : Obligations.RegisterMapReadValues := by
  intro s
  have hread : ∀ r : RegName, s.readWindow r.offset = s.readReg r := readWindow_offset s
  refine ⟨hread .cmd, hread .opa, hread .opb, hread .opc, hread .opd, hread .result, ?_, hread .id, hread .cfg,
    fun n => ?_⟩
  · exact (congrArg BitVec.toNat (hread .status)).trans (statusWord_toNat s)
  · obtain ⟨h32, h565⟩ := viewsAlwaysMatchTheChannels s n
    obtain ⟨hp32, hp565, hp5a3, hmeta⟩ := cr_offsets n
    rw [hp32, hp565, hp5a3, hmeta, hread, hread, hread, hread]
    exact ⟨h32, h565, BitVec.toNat_setWidth_of_le (by decide), metaWord_toNat _⟩

/-- Settles O13: STATUS is 30 bits of 0 above RAM and ILL. -/
theorem statusBitsRead : Obligations.StatusBitsRead := by
  intro s j
  have hstatus : s.readWindow 0x018 = s.statusWord := readWindow_offset s .status
  rw [hstatus, State.statusWord, BitVec.getLsbD_append, BitVec.getLsbD_append]
  match j with
  | 0 | 1 | j + 2 => simp

/-! ### Which bus addresses the window takes -/

/-- A bus address in the window reaches the port with its offset, `LCU_BASE` being a multiple of 4096 (20_memory.md
R40). -/
theorem selectAccess_in_window (p : Platform) (off : Offset) (bytes : Nat) (kind : AccessKind) :
    selectAccess p ⟨p.base + off.toNat, bytes, kind⟩ = some ⟨off, bytes, kind⟩ := by
  have hlt : off.toNat < 4096 := off.isLt
  have hoff : BitVec.ofNat 12 (p.base + off.toNat) = off := by
    apply BitVec.eq_of_toNat_eq
    rw [BitVec.toNat_ofNat, Platform.base, Config.windowBytes]
    omega
  rw [selectAccess, if_pos ⟨Nat.le_add_right .., Nat.add_lt_add_left hlt _⟩, hoff]

/-- A line of a host program is a transaction in the window, so it joins the events at the port (30_encoding.md R73;
log entry 1). -/
theorem issue_transaction (s : State) (p : Platform) (op : HostOp) :
    s.issue p (op.transaction p) = s.withPort (s.port ++ [op.event]) := by
  cases op with
  | rd r => rw [State.issue, HostOp.transaction, memRead, selectAccess_in_window]; rfl
  | wr r v => rw [State.issue, HostOp.transaction, memWrite, selectAccess_in_window]; rfl

/-- Settles O11: the window starts at a multiple of its size, so bits 11..0 of an address in it are its offset. -/
theorem windowSelectsItsOwnAddresses : Obligations.WindowSelectsItsOwnAddresses := by
  intro p
  refine ⟨Nat.mul_mod_right .., selectAccess_in_window p, fun t hout => ?_, fun s op => issue_transaction s p op⟩
  have hnot : ¬ (p.base ≤ t.addr ∧ t.addr < p.base + Config.windowBytes) := by
    rw [Config.windowBytes]
    omega
  rw [selectAccess, if_neg hnot]

end Sys2Proof.Machine
end

section
/-! PROOFS. The color registers under a step (10_state.md R20, R29): which steps can change one, and what every step
keeps of its P5A3. -/

namespace Sys2Proof.Machine

/-! ### Commands and one color register -/

/-- A command leaves every color register but its destination as it was (10_state.md R20). -/
theorem exec_getCr_of_not_dest {i : Instr} {s t : State} {n : CReg} (h : exec i s = .next t) (hn : destOf i ≠ some n) :
    t.getCr n = s.getCr n := by
  rcases exec_cases i s with ⟨cd, c, hcd, -, hx⟩ | ⟨w, b, -, -, hx⟩
  · cases h.symm.trans hx
    exact s.getCr_setCr_other c fun hne => hn (hne ▸ hcd)
  · cases h.symm.trans hx
    rfl

/-- A command other than SETFMT packs P5A3 of its destination from the channels and AM it writes (10_state.md R29). -/
theorem exec_packs_dest {i : Instr} {n : CReg} (s : State) (hn : destOf i = some n) (hfmt : isSetfmt i = false) :
    ∃ ch am fmt ok, exec i s = .next (s.setCr n ⟨ch, pack5A3 ch am, am, fmt, ok⟩) := by
  cases i
  case setfmt => cases hfmt
  all_goals cases hn
  case clr => exact ⟨_, _, _, _, exec_clr ..⟩
  case ld32 => exact ⟨_, _, _, _, exec_ld32 ..⟩
  case ld565 => exact ⟨_, _, _, _, exec_ld565 ..⟩
  case ld5a3 => exact ⟨_, _, _, _, exec_ld5a3 ..⟩
  case ldch => exact ⟨_, _, _, _, exec_ldch ..⟩
  case setch => exact ⟨_, _, _, _, exec_setch ..⟩
  case mov => exact ⟨_, _, _, _, exec_mov ..⟩
  case add => exact ⟨_, _, _, _, exec_add ..⟩
  case sub => exact ⟨_, _, _, _, exec_sub ..⟩
  case mul => exact ⟨_, _, _, _, exec_mul ..⟩

/-- A command other than SETFMT resyncs its destination (10_state.md R29). -/
theorem exec_resyncs {i : Instr} {s t : State} {n : CReg} (h : exec i s = .next t) (hn : destOf i = some n)
    (hfmt : isSetfmt i = false) : P5A3Current t n := by
  obtain ⟨ch, am, fmt, ok, hx⟩ := exec_packs_dest s hn hfmt
  cases h.symm.trans hx
  rw [P5A3Current, State.getCr_setCr_same]

/-- SETFMT keeps the channels and P5A3 of its destination (41_color_load.md R116). -/
theorem exec_setfmt_keeps {n : CReg} {fmt : Format} {am : Bool} {s t : State}
    (h : exec (.setfmt n fmt am) s = .next t) :
    (t.getCr n).ch = (s.getCr n).ch ∧ (t.getCr n).p5a3 = (s.getCr n).p5a3 := by
  cases h.symm.trans (exec_setfmt n fmt am s)
  rw [State.getCr_setCr_same]
  exact ⟨rfl, rfl⟩

theorem isSetfmt_of_dest {i : Instr} {n : CReg} (hn : destOf i = some n) (hfmt : isSetfmt i = true) :
    ∃ fmt am, i = .setfmt n fmt am := by
  cases i with
  | setfmt cd fmt am =>
    cases hn
    exact ⟨fmt, am, rfl⟩
  | _ => cases hfmt

/-! ### Which steps change a color register -/

/-- All that a step can do to one color register (10_state.md R20). -/
theorem step_getCr_cases {s t : State} (n : CReg) (h : step s = .next t) :
    (∃ rest, s.port = .reset :: rest ∧ t.getCr n = .reset) ∨
    (∃ rest w i, s.port = commandWrite w :: rest ∧ decode w = .ok i ∧ destOf i = some n ∧
      exec i (s.withPort rest) = .next t) ∨
    t.getCr n = s.getCr n := by
  rcases step_changes h with ⟨rest, hp⟩ | ⟨rest, w, i, hp, hw, hx⟩ | ⟨rest, r, d, -, -, rfl⟩ | hsame
  · rw [step_event hp] at h
    cases h
    exact .inl ⟨rest, hp, State.getCr_assertReset _ n⟩
  · by_cases hn : destOf i = some n
    · exact .inr (.inl ⟨rest, w, i, hp, hw, hn, hx⟩)
    · have hkept : t.getCr n = (s.withPort rest).getCr n := exec_getCr_of_not_dest hx hn
      exact .inr (.inr hkept)
  · exact .inr (.inr (by cases r <;> rfl))
  · exact .inr (.inr (congrArg (ColorRegs.get · n) hsame.cr))

/-- Settles O28: a step that does not keep the register is one of the other two cases. -/
theorem colorRegistersChangeOnlyByCommands : Obligations.ColorRegistersChangeOnlyByCommands := by
  intro s t n h hne
  rcases step_getCr_cases n h with ⟨rest, hp, -⟩ | ⟨rest, w, i, hp, hw, hn, -⟩ | hkept
  · exact ⟨rest, .inl hp⟩
  · exact ⟨rest, .inr ⟨w, i, hp, hw, hn⟩⟩
  · exact absurd hkept hne

/-! ### P5A3 -/

/-- The reset color register's P5A3 is current, in the no-alpha mode (10_state.md R29, R39). -/
theorem reset_p5a3 : ColorReg.reset.p5a3 = pack5A3 ColorReg.reset.ch ColorReg.reset.am := by decide

/-- Settles O31: every color register is the reset one, whose AM is 0. -/
theorem p5A3IsCurrentAtReset : Obligations.P5A3IsCurrentAtReset := by
  constructor
  · intro n
    rw [State.getCr_reset]
    exact reset_p5a3
  · intro n
    rw [P5A3Current, State.getCr_reset]
    exact reset_p5a3

/-- Settles O30: reset and every command but SETFMT leave P5A3 current, and a SETFMT that keeps AM keeps all that
P5A3 is compared with. -/
theorem p5A3StaysCurrentUnlessSetfmtChangesAm : Obligations.P5A3StaysCurrentUnlessSetfmtChangesAm := by
  intro s t n hs h hstale
  rcases step_getCr_cases n h with ⟨rest, -, hreset⟩ | ⟨rest, w, i, hp, hw, hn, hx⟩ | hkept
  · exact absurd (by rw [P5A3Current, hreset]; exact reset_p5a3) hstale
  · cases hfmt : isSetfmt i with
    | false => exact absurd (exec_resyncs hx hn hfmt) hstale
    | true =>
      obtain ⟨fmt, am, rfl⟩ := isSetfmt_of_dest hn hfmt
      obtain ⟨hch, hp5a3⟩ := exec_setfmt_keeps hx
      refine ⟨w, rest, fmt, am, hp, hw, fun ham => hstale ?_⟩
      rw [P5A3Current, hch, hp5a3, ham]
      exact hs
  · exact absurd (by rw [P5A3Current, hkept]; exact hs) hstale

/-! ### The mode of the last resync -/

theorem commandWord_eq_some_iff (e : PortEvent) (w : Word) : e.commandWord = some w ↔ e = commandWrite w := by
  constructor
  · intro h
    match e with
    | .reset | .accessDuringReset _ | .access ⟨_, _, .read⟩ => cases h
    | .access ⟨off, bytes, .write d⟩ =>
      rw [PortEvent.commandWord, Option.ite_none_right_eq_some] at h
      obtain ⟨⟨rfl, rfl⟩, hd⟩ := h
      cases hd
      rfl
  · rintro rfl
    rfl

theorem command_eq_some_iff (e : PortEvent) (i : Instr) :
    e.command = some i ↔ ∃ w, e = commandWrite w ∧ decode w = .ok i := by
  simp only [← commandWord_eq_some_iff, PortEvent.command]
  cases e.commandWord with
  | none => simp
  | some w => cases hw : decode w <;> simp [Except.toOption, hw]

/-- The events that resync a color register: reset, and the CMD write of a command other than SETFMT with it as
destination (10_state.md R29). -/
theorem resyncs_iff (e : PortEvent) (n : CReg) : e.resyncs n = true ↔ e = .reset ∨
    ∃ w i, e = commandWrite w ∧ decode w = .ok i ∧ destOf i = some n ∧ isSetfmt i = false := by
  have hcommand : (∃ w i, e = commandWrite w ∧ decode w = .ok i ∧ destOf i = some n ∧ isSetfmt i = false) ↔
      ∃ i, e.command = some i ∧ destOf i = some n ∧ isSetfmt i = false := by
    simp only [command_eq_some_iff]
    grind
  rw [hcommand]
  cases e with
  | reset => simp [PortEvent.resyncs]
  | access a | accessDuringReset a =>
    simp only [PortEvent.resyncs, reduceCtorEq, false_or]
    split <;> simp_all

/-- After a step whose event resyncs a color register, P5A3 of it is current (10_state.md R29). -/
theorem step_resyncs {s t : State} {e : PortEvent} {n : CReg} (h : step s = .next t) (he : s.nextEvent = some e)
    (hn : e.resyncs n = true) : P5A3Current t n := by
  obtain ⟨rest, hp⟩ := List.head?_eq_some_iff.mp he
  rw [step_event hp] at h
  rcases (resyncs_iff e n).mp hn with rfl | ⟨w, i, rfl, hw, hdest, hfmt⟩
  · cases h
    rw [P5A3Current, State.getCr_assertReset]
    exact reset_p5a3
  · rw [serve_commandWrite, State.runCommand, hw] at h
    exact exec_resyncs h hdest hfmt

/-- The event of the next step, if one waits, does not resync `CR[n]`. -/
def NoResyncNext (s : State) (n : CReg) : Prop := ∀ e, s.nextEvent = some e → ¬ e.resyncs n = true

/-- A step whose event does not resync a color register keeps its channels and P5A3 (10_state.md R29). -/
theorem step_keeps_packed {s t : State} {n : CReg} (h : step s = .next t) (hn : NoResyncNext s n) :
    (t.getCr n).ch = (s.getCr n).ch ∧ (t.getCr n).p5a3 = (s.getCr n).p5a3 := by
  rcases step_getCr_cases n h with ⟨rest, hp, -⟩ | ⟨rest, w, i, hp, hw, hdest, hx⟩ | hkept
  · exact absurd rfl (hn .reset (congrArg List.head? hp))
  · cases hfmt : isSetfmt i with
    | true =>
      obtain ⟨fmt, am, rfl⟩ := isSetfmt_of_dest hdest hfmt
      exact exec_setfmt_keeps (s := s.withPort rest) hx
    | false =>
      have hresyncs := (resyncs_iff (commandWrite w) n).mpr (.inr ⟨w, i, rfl, hw, hdest, hfmt⟩)
      exact absurd hresyncs (hn _ (congrArg List.head? hp))
  · rw [hkept]
    exact ⟨rfl, rfl⟩

theorem modeAfter_of_resyncs {s : State} (t : State) (m : CReg → Bool) {e : PortEvent} {n : CReg}
    (he : s.nextEvent = some e) (hn : e.resyncs n = true) : modeAfter s t m n = (t.getCr n).am := by
  simp only [modeAfter, he, hn, if_true]

theorem modeAfter_of_noResyncNext {s : State} (t : State) (m : CReg → Bool) {n : CReg} (hn : NoResyncNext s n) :
    modeAfter s t m n = m n := by
  unfold modeAfter
  split
  · next e he => exact if_neg (hn e he)
  · rfl

/-- Settles O29: an event that resyncs the register leaves P5A3 current, and any other keeps what P5A3 was packed
from. -/
theorem everyStepKeepsP5A3InItsResyncMode : Obligations.EveryStepKeepsP5A3InItsResyncMode := by
  intro s t m hm h n
  by_cases hn : NoResyncNext s n
  · obtain ⟨hch, hp5a3⟩ := step_keeps_packed h hn
    rw [modeAfter_of_noResyncNext t m hn, hch, hp5a3]
    exact hm n
  · obtain ⟨e, he, hr⟩ : ∃ e, s.nextEvent = some e ∧ e.resyncs n = true := by simpa [NoResyncNext] using hn
    rw [modeAfter_of_resyncs t m he hr]
    exact step_resyncs h he hr

end Sys2Proof.Machine
end

section
/-! PROOFS. Results and frames of commands (41_color_load.md; 42_blend.md R140, R144; 40_codec.md section 4;
70_reset_and_hazards.md R184): which offsets of the window a command can change, and what its destination holds. -/

namespace Sys2Proof.Machine

/-! ### SETFMT and what follows it -/

/-- Settles O47: SETFMT does not write P5A3, and MOV and SETCH are resyncs of their destination. -/
theorem resyncEndsTheStaleP5A3 : Obligations.ResyncEndsTheStaleP5A3 := by
  intro cd fmt am k s
  have hsetfmt := exec_setfmt cd fmt am s
  obtain ⟨-, hp5a3⟩ := exec_setfmt_keeps hsetfmt
  refine ⟨_, _, _, hsetfmt, hp5a3, exec_mov cd cd _, exec_resyncs (exec_mov cd cd _) rfl rfl, ?_, exec_setch cd k _,
    exec_resyncs (exec_setch cd k _) rfl rfl, ?_⟩
  · rw [State.getCr_setCr_same]
  · rw [State.getCr_setCr_same]
    exact inrange8_iff _

/-! ### Commutative blends -/

theorem blendLanes_comm {op : Int → Int → Int} (hop : ∀ x y, op x y = op y x) (x y : Channels) :
    blendLanes op x y = blendLanes op y x := by
  simp only [blendLanes, hop x.r.toNat, hop x.g.toNat, hop x.b.toNat, hop x.a.toNat]

/-- A blend by a commutative operation takes only AM, FMT and the mode of P5A3 from `CA` alone (42_blend.md R144). -/
theorem blended_comm {op : Int → Int → Int} (hop : ∀ x y, op x y = op y x) (x y : ColorReg) :
    (blended op x y).ch = (blended op y x).ch ∧ (blended op x y).valid = (blended op y x).valid := by
  rw [blended, blended, blendLanes_comm hop]
  exact ⟨rfl, rfl⟩

/-- Settles O54: addition and multiplication of integers are commutative. -/
theorem addAndMulCommuteInChannelsAndValid : Obligations.AddAndMulCommuteInChannelsAndValid := by
  intro cd ca cb s
  obtain ⟨haddCh, haddValid⟩ := blended_comm Int.add_comm (s.getCr ca) (s.getCr cb)
  obtain ⟨hmulCh, hmulValid⟩ := blended_comm Int.mul_comm (s.getCr ca) (s.getCr cb)
  refine ⟨_, _, _, _, exec_add cd ca cb s, exec_add cd cb ca s, ?_, ?_, exec_mul cd ca cb s, exec_mul cd cb ca s,
    ?_, ?_⟩
  all_goals simp only [State.getCr_setCr_same]
  · exact haddCh
  · exact haddValid
  · exact hmulCh
  · exact hmulValid

/-! ### Frames of the window -/

/-- Two states read the same at an offset where they read the same at the register the map has there. -/
theorem readWindow_congr {s t : State} {off : Offset}
    (h : ∀ r : RegName, off = r.offset → t.readReg r = s.readReg r) : t.readWindow off = s.readWindow off := by
  cases hr : regAt off with
  | none => rw [readWindow_unmapped t hr, readWindow_unmapped s hr]
  | some r =>
    have hoff := regAt_eq_some hr
    rw [hoff, readWindow_offset, readWindow_offset, h r hoff]

/-- A color register's four views lie in its 16 bytes (20_memory.md R41). -/
theorem offset_inCrWindow (n : CReg) : inCrWindow n (RegName.crP32 n).offset ∧ inCrWindow n (RegName.crP565 n).offset ∧
    inCrWindow n (RegName.crP5a3 n).offset ∧ inCrWindow n (RegName.crMeta n).offset := by
  unfold inCrWindow
  cases n <;> decide

/-- A register outside the 16 bytes of `CR[cd]` reads the same whatever `CR[cd]` holds. -/
theorem readReg_setCr (s : State) {cd : CReg} (c : ColorReg) {r : RegName} (h : ¬ inCrWindow cd r.offset) :
    (s.setCr cd c).readReg r = s.readReg r := by
  have hviews (n : CReg) (hn : n ≠ cd) := s.getCr_setCr_other c hn
  obtain ⟨h32, h565, h5a3, hmeta⟩ := offset_inCrWindow cd
  cases r with
  | crP32 n => exact congrArg ColorReg.p32 (hviews n fun hn => h (hn ▸ h32))
  | crP565 n => exact congrArg (fun x : ColorReg => x.p565.setWidth 32) (hviews n fun hn => h (hn ▸ h565))
  | crP5a3 n => exact congrArg (fun x : ColorReg => x.p5a3.setWidth 32) (hviews n fun hn => h (hn ▸ h5a3))
  | crMeta n => exact congrArg ColorReg.metaWord (hviews n fun hn => h (hn ▸ hmeta))
  | _ => rfl

/-- Settles O55: such a command writes one color register, whose views lie in its own 16 bytes. -/
theorem loadsAndBlendsChangeOnlyTheirDestination : Obligations.LoadsAndBlendsChangeOnlyTheirDestination := by
  intro i cd s t hcd h
  rcases exec_cases i s with ⟨cd', c, hcd', -, hx⟩ | ⟨_, _, hnone, -, -⟩
  · cases hcd.symm.trans hcd'
    cases h.symm.trans hx
    refine ⟨fun n hn => s.getCr_setCr_other c hn, s.setCr_sameButColors cd c, fun off hoff => ?_⟩
    exact readWindow_congr fun r hr => readReg_setCr s c (hr ▸ hoff)
  · cases hcd.symm.trans hnone

/-- A register other than RESULT and STATUS reads the same after a conversion. -/
theorem readReg_convertTo (s : State) (w : Word) (am : Bool) {r : RegName} (hresult : r ≠ .result)
    (hstatus : r ≠ .status) : (s.convertTo w am).readReg r = s.readReg r := by
  cases r with
  | result => exact absurd rfl hresult
  | status => exact absurd rfl hstatus
  | _ => rfl

/-- Settles O56: a conversion writes RESULT and RAM, and RAM is bit 1 of STATUS. -/
theorem conversionsChangeOnlyResultAndRam : Obligations.ConversionsChangeOnlyResultAndRam := by
  intro i s t hi h
  rcases exec_cases i s with ⟨_, _, -, hno, -⟩ | ⟨w, am, -, -, hx⟩
  · cases hi.symm.trans hno
  · cases h.symm.trans hx
    refine ⟨fun _ => rfl, rfl, rfl, rfl, rfl, rfl, rfl, rfl, fun off hresult hstatus => ?_, fun j hj => ?_⟩
    · refine readWindow_congr fun r hr => readReg_convertTo s w am ?_ ?_
      · rintro rfl
        exact hresult hr
      · rintro rfl
        exact hstatus hr
    · rw [statusBitsRead, statusBitsRead, if_neg hj, if_neg hj]
      rfl

end Sys2Proof.Machine
end

section
/-! PROOFS. What commands do not read (10_state.md R27, R38; 30_encoding.md R68): two runs of a command, from states
that differ in FMT or P5A3 of the color registers, or in an operand register. -/

namespace Sys2Proof.Machine

/-! ### Two runs from color registers that differ in FMT or P5A3 -/

/-- Two color registers agree on channels, AM and VALID, on FMT where `f` holds, and on P5A3 where `p` holds. -/
structure Agree (f p : Prop) (x y : ColorReg) : Prop where
  ch : y.ch = x.ch
  am : y.am = x.am
  valid : y.valid = x.valid
  fmt : f → y.fmt = x.fmt
  p5a3 : p → y.p5a3 = x.p5a3

theorem Agree.weaken {f p q : Prop} {x y : ColorReg} (h : Agree f p x y) (hq : q → p) : Agree f q x y :=
  ⟨h.ch, h.am, h.valid, h.fmt, fun hp => h.p5a3 (hq hp)⟩

/-- `s` with the color registers `f`. -/
def State.withCr (s : State) (f : ColorRegs) : State := { s with cr := f }

/-- A blend copies FMT of `CA`; nothing else of its result depends on FMT and P5A3 of its sources (42_blend.md R140). -/
theorem blended_of_agree (op : Int → Int → Int) {f p q : Prop} {x x' y y' : ColorReg} (hx : Agree f p x x')
    (hy : Agree f q y y') : blended op x' y' = { blended op x y with fmt := x'.fmt } := by
  simp only [blended, hx.ch, hx.am, hy.ch]

/-- Writing one color register leaves all other state the same, whatever color registers there were. -/
theorem sameButColors_setCr_withCr (s : State) (f : ColorRegs) (cd : CReg) (c d : ColorReg) :
    SameButColors (s.setCr cd c) ((s.withCr f).setCr cd d) :=
  ⟨rfl, rfl, rfl, rfl, rfl, rfl, rfl, rfl, rfl⟩

section
variable {F : Prop} {P : CReg → Prop} (i : Instr) (s : State) (f : ColorRegs)
  (hf : ∀ j, Agree F (P j) (s.getCr j) ((s.withCr f).getCr j))
include hf

/-- What a command writes from other color registers that agree: a conversion writes the same, SETFMT writes the same
FMT and AM, and any other command the same color register but for an FMT copied from a source. -/
theorem exec_withCr_cases :
    (∃ w b, destOf i = none ∧ exec i s = .next (s.convertTo w b) ∧
      exec i (s.withCr f) = .next ((s.withCr f).convertTo w b)) ∨
    (∃ cd t am, isSetfmt i = true ∧ exec i s = .next (s.setCr cd { s.getCr cd with am := am, fmt := t }) ∧
      exec i (s.withCr f) = .next ((s.withCr f).setCr cd { (s.withCr f).getCr cd with am := am, fmt := t })) ∨
    (∃ cd c t, destOf i = some cd ∧ exec i s = .next (s.setCr cd c) ∧
      exec i (s.withCr f) = .next ((s.withCr f).setCr cd { c with fmt := t }) ∧ (F → t = c.fmt)) := by
  have hblend (op : Int → Int → Int) (ca cb : CReg) := blended_of_agree op (hf ca) (hf cb)
  cases i with
  | cvt565to32 => exact .inl ⟨_, _, rfl, exec_cvt565to32 .., exec_cvt565to32 ..⟩
  | cvt565to24 => exact .inl ⟨_, _, rfl, exec_cvt565to24 .., exec_cvt565to24 ..⟩
  | cvt5a3to32 => exact .inl ⟨_, _, rfl, exec_cvt5a3to32 .., exec_cvt5a3to32 ..⟩
  | cvt5a3to24 => exact .inl ⟨_, _, rfl, exec_cvt5a3to24 .., exec_cvt5a3to24 ..⟩
  | cvt32to565 => exact .inl ⟨_, _, rfl, exec_cvt32to565 .., exec_cvt32to565 ..⟩
  | cvt32to5a3 am => exact .inl ⟨_, _, rfl, exec_cvt32to5a3 .., exec_cvt32to5a3 ..⟩
  | setfmt cd t am => exact .inr (.inl ⟨cd, _, _, rfl, exec_setfmt .., exec_setfmt ..⟩)
  | clr cd => exact .inr (.inr ⟨cd, _, _, rfl, exec_clr .., exec_clr .., fun _ => rfl⟩)
  | ld32 cd am => exact .inr (.inr ⟨cd, _, _, rfl, exec_ld32 .., exec_ld32 .., fun _ => rfl⟩)
  | ld565 cd => exact .inr (.inr ⟨cd, _, _, rfl, exec_ld565 .., exec_ld565 .., fun _ => rfl⟩)
  | ld5a3 cd => exact .inr (.inr ⟨cd, _, _, rfl, exec_ld5a3 .., exec_ld5a3 .., fun _ => rfl⟩)
  | ldch cd am hasa => exact .inr (.inr ⟨cd, _, _, rfl, exec_ldch .., exec_ldch .., fun _ => rfl⟩)
  | setch cd k =>
    refine .inr (.inr ⟨cd, _, ((s.withCr f).getCr cd).fmt, rfl, exec_setch .., ?_, (hf cd).fmt⟩)
    rw [exec_setch, (hf cd).ch, (hf cd).am]
    rfl
  | mov cd ca =>
    refine .inr (.inr ⟨cd, _, ((s.withCr f).getCr ca).fmt, rfl, exec_mov .., ?_, (hf ca).fmt⟩)
    rw [exec_mov, (hf ca).ch, (hf ca).am, (hf ca).valid]
  | add cd ca cb => exact .inr (.inr ⟨cd, _, _, rfl, exec_add .., by rw [exec_add, hblend], (hf ca).fmt⟩)
  | sub cd ca cb => exact .inr (.inr ⟨cd, _, _, rfl, exec_sub .., by rw [exec_sub, hblend], (hf ca).fmt⟩)
  | mul cd ca cb => exact .inr (.inr ⟨cd, _, _, rfl, exec_mul .., by rw [exec_mul, hblend], (hf ca).fmt⟩)

/-- A command run from other color registers that agree completes with color registers that agree, on P5A3 also where it
resyncs, and with all else the same (10_state.md R27, R38). -/
theorem exec_withCr_agree :
    ∃ t u, exec i s = .next t ∧ exec i (s.withCr f) = .next u ∧ SameButColors t u ∧
      ∀ j, Agree F (P j ∨ destOf i = some j ∧ isSetfmt i = false) (t.getCr j) (u.getCr j) := by
  rcases exec_withCr_cases i s f hf with ⟨w, b, hn, ht, hu⟩ | ⟨cd, fmt, am, hset, ht, hu⟩ | ⟨cd, c, k, hcd, ht, hu, hk⟩
  · refine ⟨_, _, ht, hu, ⟨rfl, rfl, rfl, rfl, rfl, rfl, rfl, rfl, rfl⟩, fun j => (hf j).weaken ?_⟩
    simp [hn]
  · refine ⟨_, _, ht, hu, sameButColors_setCr_withCr .., fun j => Agree.weaken (p := P j) ?_ ?_⟩
    · rw [State.getCr_setCr, State.getCr_setCr]
      split
      · next hj => exact ⟨hj ▸ (hf j).ch, rfl, hj ▸ (hf j).valid, fun _ => rfl, hj ▸ (hf j).p5a3⟩
      · exact hf j
    · simp [hset]
  · refine ⟨_, _, ht, hu, sameButColors_setCr_withCr .., fun j => ?_⟩
    rw [State.getCr_setCr, State.getCr_setCr]
    split
    · exact ⟨rfl, rfl, rfl, hk, fun _ => rfl⟩
    · next hj => exact (hf j).weaken (by simp [hcd, Ne.symm hj])

end

/-- Color registers one of which was replaced agree where the new value does. -/
theorem agree_setCr {F : Prop} {P : CReg → Prop} (s : State) (n : CReg) {c : ColorReg}
    (hc : Agree F (P n) (s.getCr n) c) : ∀ j, Agree F (P j) (s.getCr j) ((s.setCr n c).getCr j) := by
  intro j
  rw [State.getCr_setCr]
  split
  · next hj => exact hj ▸ hc
  · exact ⟨rfl, rfl, rfl, fun _ => rfl, fun _ => rfl⟩

/-- Settles O57: with one FMT replaced, the color registers agree on all but FMT before the command, so also after
it. -/
theorem fmtGatesNothing : Obligations.FmtGatesNothing := by
  intro i s n f
  have hc : Agree False True (s.getCr n) { s.getCr n with fmt := f } := ⟨rfl, rfl, rfl, nofun, fun _ => rfl⟩
  obtain ⟨t, u, ht, hu, hrest, hagree⟩ := exec_withCr_agree i s _ (agree_setCr (P := fun _ => True) s n hc)
  exact ⟨t, u, ht, hu, hrest, fun j =>
    ⟨(hagree j).ch, (hagree j).p5a3 (.inl trivial), (hagree j).am, (hagree j).valid⟩⟩

/-- Settles O58: with one P5A3 replaced, the color registers agree on all but that word before the command, so also
after it, and on that word too where the command resyncs it. -/
theorem noCommandReadsTheStoredP5A3 : Obligations.NoCommandReadsTheStoredP5A3 := by
  intro i s n x
  have hc : Agree True (n ≠ n) (s.getCr n) { s.getCr n with p5a3 := x } :=
    ⟨rfl, rfl, rfl, fun _ => rfl, fun h => absurd rfl h⟩
  obtain ⟨t, u, ht, hu, hrest, hagree⟩ := exec_withCr_agree i s _ (agree_setCr (P := (· ≠ n)) s n hc)
  exact ⟨t, u, ht, hu, hrest,
    fun j => ⟨(hagree j).ch, (hagree j).am, (hagree j).fmt trivial, (hagree j).valid⟩, fun j => (hagree j).p5a3⟩

/-! ### Two runs from operand registers that differ -/

/-- Of all commands only LDCH reads OPB and OPC (30_encoding.md R68). -/
theorem exec_withOpb_withOpc {i : Instr} {s t : State} (h : exec i s = .next t)
    (hi : ∀ cd am hasa, i ≠ .ldch cd am hasa) (v : Word) :
    exec i { s with opb := v } = .next { t with opb := v } ∧
    exec i { s with opc := v } = .next { t with opc := v } := by
  cases i with
  | ldch cd am hasa => exact absurd rfl (hi cd am hasa)
  | _ =>
    cases h
    exact ⟨rfl, rfl⟩

/-- Of all commands only LDCH with `hasa` reads OPD (30_encoding.md R68). -/
theorem exec_withOpd {i : Instr} {s t : State} (h : exec i s = .next t) (hi : ∀ cd am, i ≠ .ldch cd am true)
    (v : Word) : exec i { s with opd := v } = .next { t with opd := v } := by
  cases i with
  | ldch cd am hasa =>
    cases hasa with
    | true => exact absurd rfl (hi cd am)
    | false =>
      have hraw : State.rawOperands { s with opd := v } false = s.rawOperands false := by
        rw [State.rawOperands_false, State.rawOperands_false]
      cases h.symm.trans (exec_ldch cd am false s)
      rw [exec_ldch, hraw]
      rfl
  | _ =>
    cases h
    rfl

/-- A command that does not read OPA runs the same whatever OPA is (30_encoding.md R68). -/
theorem exec_withOpa_of_unread {i : Instr} {s t : State} (h : exec i s = .next t) (hi : opaUse i = .unread) (v : Word) :
    exec i { s with opa := v } = .next { t with opa := v } := by
  cases i
  all_goals cases hi
  all_goals
    cases h
    rfl

/-- A command that reads `OPA[15:0]` runs the same whatever `OPA[31:16]` is (30_encoding.md R68). -/
theorem exec_withOpa_of_lowHalf {i : Instr} {s t : State} (h : exec i s = .next t) (hi : opaUse i = .lowHalf) {v : Word}
    (hv : v.toNat % 2 ^ 16 = s.opa.toNat % 2 ^ 16) : exec i { s with opa := v } = .next { t with opa := v } := by
  have hhalf : State.opaHalf { s with opa := v } = s.opaHalf := by
    apply BitVec.eq_of_toNat_eq
    rw [State.opaHalf_toNat, State.opaHalf_toNat, hv]
  cases i
  all_goals cases hi
  case ld565 => cases h.symm.trans (exec_ld565 ..); rw [exec_ld565, hhalf]; rfl
  case ld5a3 => cases h.symm.trans (exec_ld5a3 ..); rw [exec_ld5a3, hhalf]; rfl
  case cvt565to32 => cases h.symm.trans (exec_cvt565to32 ..); rw [exec_cvt565to32, hhalf]; rfl
  case cvt565to24 => cases h.symm.trans (exec_cvt565to24 ..); rw [exec_cvt565to24, hhalf]; rfl
  case cvt5a3to32 => cases h.symm.trans (exec_cvt5a3to32 ..); rw [exec_cvt5a3to32, hhalf]; rfl
  case cvt5a3to24 => cases h.symm.trans (exec_cvt5a3to24 ..); rw [exec_cvt5a3to24, hhalf]; rfl

/-- Settles O59: a command reads of the operand registers only what the list of 30_encoding.md R68 names. -/
theorem commandsReadOnlyTheirOperands : Obligations.CommandsReadOnlyTheirOperands := by
  intro i s v
  obtain ⟨t, ht, -⟩ := exec_withPort i s []
  refine ⟨t, ht, fun hi => exec_withOpb_withOpc ht hi v, fun hi => exec_withOpd ht hi v, ?_⟩
  rintro (hi | ⟨hi, hv⟩)
  · exact exec_withOpa_of_unread ht hi v
  · exact exec_withOpa_of_lowHalf ht hi hv

end Sys2Proof.Machine
end

section
/-! PROOFS. The pseudo-instructions (30_encoding.md R74): an expansion is host writes to the operand registers or to
STATUS, then at most one command and one read, each taken by one step. -/

namespace Sys2Proof.Machine

/-- A line that writes a register other than CMD is that register's write (30_encoding.md R73). -/
theorem step_wr (s : State) (rest : List PortEvent) {r : RegName} (hr : r ≠ .cmd) (v : Word) :
    step (s.withPort ((HostOp.wr r v).event :: rest)) = .next ((regWritten s r v).withPort rest) := by
  obtain ⟨hcmd, -⟩ | ⟨-, hw⟩ := writeReg_cases (s.withPort rest) r v
  · exact absurd hcmd hr
  · rw [← regWritten_withPort, ← hw]
    exact step_writeAt_offset s r v rest

/-- A run that starts with such a line goes on from what the write leaves. -/
theorem runSteps_wr (n : Nat) (s : State) (rest : List PortEvent) {r : RegName} (hr : r ≠ .cmd) (v : Word) :
    runSteps (n + 1) (s.withPort ((HostOp.wr r v).event :: rest)) = runSteps n ((regWritten s r v).withPort rest) :=
  runSteps_succ n (step_wr s rest hr v)

/-- A bare command line runs the command (30_encoding.md R65, R73). -/
theorem runSteps_command (s : State) (rest : List PortEvent) {i : Instr} (hi : i.WellFormed) :
    runSteps 1 (s.withPort ((command i).event :: rest)) = exec i (s.withPort rest) :=
  (runSteps_one _).trans (step_commandWrite s rest (decodeOfEncodeIsTheCommand i hi))

/-- OPA written, then a command (30_encoding.md R74). -/
theorem runSteps_opa_command (s : State) (rest : List PortEvent) (v : Word) {i : Instr} (hi : i.WellFormed) :
    runSteps 2 (s.withPort ([HostOp.wr .opa v, command i].map HostOp.event ++ rest)) =
      exec i { s.withPort rest with opa := v } :=
  (runSteps_wr 1 s _ (by decide) v).trans (runSteps_command _ rest hi)

/-- The expansion of `ldchi` without alpha (30_encoding.md R74). -/
theorem runSteps_ldchi (s : State) (rest : List PortEvent) (cd : CReg) (r g b : Word) (am : Bool) :
    runSteps 4 (s.withPort ((Pseudo.ldchi cd r g b none am).expand.map HostOp.event ++ rest)) =
      exec (.ldch cd am false) { s.withPort rest with opa := r, opb := g, opc := b } := calc
  _ = _ := runSteps_wr 3 s _ (r := .opa) (by decide) r
  _ = _ := runSteps_wr 2 _ _ (r := .opb) (by decide) g
  _ = _ := runSteps_wr 1 _ _ (r := .opc) (by decide) b
  _ = _ := runSteps_command _ rest rfl

/-- The expansion of `ldchi` with alpha (30_encoding.md R74). -/
theorem runSteps_ldchi_alpha (s : State) (rest : List PortEvent) (cd : CReg) (r g b a : Word) (am : Bool) :
    runSteps 5 (s.withPort ((Pseudo.ldchi cd r g b (some a) am).expand.map HostOp.event ++ rest)) =
      exec (.ldch cd am true) { s.withPort rest with opa := r, opb := g, opc := b, opd := a } := calc
  _ = _ := runSteps_wr 4 s _ (r := .opa) (by decide) r
  _ = _ := runSteps_wr 3 _ _ (r := .opb) (by decide) g
  _ = _ := runSteps_wr 2 _ _ (r := .opc) (by decide) b
  _ = _ := runSteps_wr 1 _ _ (r := .opd) (by decide) a
  _ = _ := runSteps_command _ rest rfl

/-- The conversions are well-formed, having no field that could be ill-formed (30_encoding.md R67). -/
theorem conversion_wellFormed (c : Conversion) : c.instr.WellFormed := by
  cases c <;> rfl

/-- The expansion of `cvt<x>i`: OPA written, the conversion, and a read of RESULT (30_encoding.md R74). -/
theorem runSteps_cvti (s : State) (rest : List PortEvent) (c : Conversion) (imm : Word) :
    ∃ u, exec c.instr { s.withPort rest with opa := imm } = .next u ∧
      runSteps 3 (s.withPort ((Pseudo.cvti c imm).expand.map HostOp.event ++ rest)) = .next (u.reply u.result) := by
  have hw := decodeOfEncodeIsTheCommand c.instr (conversion_wellFormed c)
  obtain ⟨u, hu, hrun⟩ := runSteps_command_read (regWritten s .opa imm) rest hw (offset_aligned .result)
  refine ⟨u, hu, ?_⟩
  rw [readWindow_offset] at hrun
  exact (runSteps_wr 2 s _ (by decide) imm).trans hrun

/-- The expansion of `resync`: a MOV of the register onto itself (30_encoding.md R74). -/
theorem runSteps_resync (s : State) (rest : List PortEvent) (cd : CReg) :
    ∃ p, runSteps 1 (s.withPort ((Pseudo.resync cd).expand.map HostOp.event ++ rest)) =
      .next ((s.withPort rest).setCr cd { s.getCr cd with p5a3 := p }) ∧
      p.toNat = (s.getCr cd).ch.n5A3 (s.getCr cd).am :=
  ⟨_, (runSteps_command s rest rfl).trans (exec_mov cd cd _), pack5A3_toNat ..⟩

/-- The expansion of `clrerr`: a STATUS write with bit 0 set (30_encoding.md R74). -/
theorem runSteps_clrerr (s : State) (rest : List PortEvent) :
    runSteps 1 (s.withPort (Pseudo.clrerr.expand.map HostOp.event ++ rest)) =
      .next { s.withPort rest with ill := false } :=
  (runSteps_one _).trans (step_writeAt_status s rest 1)

/-- Settles O60: each expansion is run line by line. -/
theorem pseudoInstructionsRun : Obligations.PseudoInstructionsRun := fun s rest cd =>
  ⟨fun imm _ => runSteps_opa_command s rest imm rfl, fun imm => runSteps_opa_command s rest (imm.setWidth 32) rfl,
    fun imm => runSteps_opa_command s rest (imm.setWidth 32) rfl, runSteps_ldchi s rest cd,
    runSteps_ldchi_alpha s rest cd, fun _ imm => runSteps_opa_command s rest imm rfl, runSteps_cvti s rest,
    runSteps_resync s rest cd, runSteps_clrerr s rest⟩

end Sys2Proof.Machine
end
